-- ==== Sys2Proof/Word.lean ====
section
/-! DEFINITION. The word of the Fp core and the value types of rule R12: field elements, pairs, points, curves, public keys. -/

namespace Sys2Proof

/-- One register or port word: 32 bits, bit `i` of weight `2^i` (rules R10, R58). -/
abbrev Word := BitVec 32

/-- `x0 + x1·i` with `i² = −1` (rule R21). A field element is an integer, in `[0, p)` for every value a command computes
(rules R12, R20): a natural number here. The word a register holds is its `BitVec.ofNat 32`; the bound is an invariant of the
machine (`Safety.lean`; DESIGN CHOICE, assumption 11). -/
structure Fp2 where
  x0 : Nat
  x1 : Nat
  deriving DecidableEq, Repr

/-- An affine point `(x, y)`, or the sentinel of rule R22. -/
structure Point where
  x : Fp2
  y : Fp2
  deriving DecidableEq, Repr

/-- The coefficients `(a, b)` of `b·y² = x³ + a·x² + x` (rule R23). -/
structure Curve where
  a : Fp2
  b : Fp2
  deriving DecidableEq, Repr

/-- The three x-coordinates of a public key: of `P`, of `Q` and of `P − Q` (rule R25). -/
structure PublicKey where
  xP : Fp2
  xQ : Fp2
  xR : Fp2
  deriving DecidableEq, Repr

end Sys2Proof
end

