-- ==== Sys2Proof/Config.lean ====
section
/-! DEFINITION. The constants of the hardware (rule R8) and the constants derived from its modulus (rule R9). -/

namespace Sys2Proof.Config

/-- `P_MOD`, the prime `p` (rule R8). -/
def p : Nat := 0x0cd07fff

/-- `E2`, exponent of 2 (rule R8). -/
def e2 : Nat := 15

/-- `E3`, exponent of 3 (rule R8). -/
def e3 : Nat := 8

/-- `MSBA`, ladder width of the 2-side (rule R8). -/
def msbA : Nat := 15

/-- `MSBB`, ladder width of the 3-side (rule R8). -/
def msbB : Nat := 12

/-- `(p + 1) / 4`, the exponent of the square root (rules R9, R120). -/
def sqrtExp : Nat := 0x03342000

/-- `(p − 3) / 4` (rules R9, R150). -/
def sqrtExpMinusOne : Nat := 0x03341fff

/-- `p − 2`, the exponent of the inversion (rules R9, R117). -/
def invExp : Nat := 0x0cd07ffd

/-- `INV2`, the inverse of 2 modulo `p` (rules R9, R151). -/
def inv2 : Nat := 0x06684000

end Sys2Proof.Config
end

