-- ==== Sys2Proof/Syntax.lean ====
section
/-! DEFINITION. The commands of rule R84 as syntax: one constructor per row, operands as the fields of the command word hold them. -/

namespace Sys2Proof

/-- Class `F`: word index of a field-element register. Every six-bit value is legal (rule R82). -/
abbrev FReg := BitVec 6
/-- Class `Z`: word index of the first word of an Fp2 pair (rules R28, R82). -/
abbrev ZReg := BitVec 6
/-- Class `Q`: word index of the first word of a point or curve (rules R28, R82). -/
abbrev QReg := BitVec 6
/-- Class `QC`: a quad's word index taken from the eight-bit immediate (rule R82). -/
abbrev QcReg := BitVec 8
/-- Class `PK`: word index of the first word of a public key (rules R28, R82). -/
abbrev PkReg := BitVec 6
/-- Class `T3`: word index of the first word of three quads (rules R28, R82). -/
abbrev T3Reg := BitVec 6
/-- Class `W`: index of an integer register (rule R82). -/
abbrev WReg := BitVec 6
/-- Class `S`: index of a word of the parameter bank (rule R82). -/
abbrev Slot := BitVec 6

/-- The five fields of the one format R (rule R81). -/
structure Fields where
  op : BitVec 6
  rd : BitVec 6
  ra : BitVec 6
  rb : BitVec 6
  imm8 : BitVec 8
  deriving DecidableEq, Repr

/-- Why a word selects no command; both raise Fault(1) (rules R85, R86). -/
inductive DecodeError where
  /-- `op` is one of the 17 reserved values (rule R85). -/
  | reservedOpcode (op : BitVec 6)
  /-- A field of class `-` is not zero (rule R86). -/
  | unusedFieldNonzero (op : BitVec 6)
  deriving DecidableEq, Repr

/-- The 47 commands of rule R84, in opcode order. Operands hold whatever the word's fields hold: the values that
rule R82 calls illegal are terms too, refused by `WellFormed` and answered with Fault(2) by the machine. -/
inductive Instr where
  | prmConst (slot : Slot) (ws : WReg)
  | plock
  | fpConst (fd : FReg) (ws : WReg)
  | fpAdd (fd fa fb : FReg)
  | fpSub (fd fa fb : FReg)
  | fpMul (fd fa fb : FReg)
  | fpNeg (fd fa : FReg)
  | fpSqr (fd fa : FReg)
  | fpInv (fd fa : FReg)
  | fpPow (fd fa : FReg) (ws : WReg)
  | fpSqrt (fd fa : FReg)
  | fpEq (wd : WReg) (fa fb : FReg)
  | fpIseven (wd : WReg) (fa : FReg)
  | fpBit (wd : WReg) (fa : FReg) (bit : BitVec 8)
  | fpIsqr (wd : WReg) (fa : FReg)
  | fp2Const (zd : ZReg) (ws : WReg)
  | fp2Constp (zd : ZReg) (ws wt : WReg)
  | fp2Add (zd za zb : ZReg)
  | fp2Sub (zd za zb : ZReg)
  | fp2Mul (zd za zb : ZReg)
  | fp2Sqr (zd za : ZReg)
  | fp2Inv (zd za : ZReg)
  | fp2Neg (zd za : ZReg)
  | fp2Eq (wd : WReg) (za zb : ZReg)
  | fp2Sqrt (zd za : ZReg)
  | ptIsinf (wd : WReg) (qa : QReg)
  | xdbl (qd qc qa : QReg)
  | xadd (qd qc qa : QReg) (qb : QcReg)
  | xtpl (qd qc qa : QReg)
  | xdble (qd qc qa : QReg) (n : BitVec 8)
  | xtple (qd qc qa : QReg) (n : BitVec 8)
  /-- `imm8` is split as class `LAD` says: the scalar's register in bits 7:5, the ladder width in bits 4:0 (rule R83). -/
  | ladder (qd qc qa : QReg) (ws : BitVec 3) (msb : BitVec 5)
  | jinv (zd : ZReg) (qc : QReg)
  | curve2iso (qd qk qc : QReg)
  | eval2iso (qd qk qa : QReg)
  | curve3iso (qd qk qc : QReg)
  | eval3iso (qd qk qa : QReg)
  | curve4iso (qd qk qc : QReg)
  | eval4iso (qd qk qa : QReg)
  /-- `imm8` is split as class `WALK` says: A2 in bit 7, A1 in bit 6, the walk length in bits 5:0 (rule R83). -/
  | iso2e (qc qs qa : QReg) (a2 a1 : Bool) (e : BitVec 6)
  | iso3e (qc qs qa : QReg) (a2 a1 : Bool) (e : BitVec 6)
  | getxr (zd : PkReg) (qc qa : QReg) (qb : QcReg)
  | recover (qd : T3Reg) (za : PkReg)
  | isogen2 (zd : PkReg) (ws : WReg)
  | isogen3 (zd : PkReg) (ws : WReg)
  | isoex2 (zd : ZReg) (za : PkReg) (ws : WReg)
  | isoex3 (zd : ZReg) (za : PkReg) (ws : WReg)
  deriving DecidableEq, Repr

end Sys2Proof
end

