-- ==== Sys2Proof/Decode.lean ====
section
/-! DEFINITION. Command words (rules R80 to R88): fields, the decoder that selects a command, the legality of its operand
fields, and the encoder. -/

namespace Sys2Proof

/-! ### The format (rule R81) -/

/-- Step (1) of rule R88: the five fields of a command word. -/
def splitFields (c : Word) : Fields where
  op := c.extractLsb' 26 6
  rd := c.extractLsb' 20 6
  ra := c.extractLsb' 14 6
  rb := c.extractLsb' 8 6
  imm8 := c.extractLsb' 0 8

/-- The word with these fields, `op` in the highest bits (rule R81). -/
def joinFields (x : Fields) : Word :=
  x.op ++ x.rd ++ x.ra ++ x.rb ++ x.imm8

/-! ### Sub-fields of the immediate (rule R83) -/

/-- Class `LAD`, `imm8[7:5]`: the integer register that holds the scalar. -/
def ladderScalar (imm8 : BitVec 8) : BitVec 3 := imm8.extractLsb' 5 3

/-- Class `LAD`, `imm8[4:0]`: the ladder width. -/
def ladderWidth (imm8 : BitVec 8) : BitVec 5 := imm8.extractLsb' 0 5

/-- `imm8 = 32·(index of ws) + msb` (rule R89). -/
def ladderImm (ws : BitVec 3) (msb : BitVec 5) : BitVec 8 := ws ++ msb

/-- Class `WALK`, `imm8[7]`: auxiliary point 2 present. -/
def walkA2 (imm8 : BitVec 8) : Bool := imm8.getLsbD 7

/-- Class `WALK`, `imm8[6]`: auxiliary point 1 present. -/
def walkA1 (imm8 : BitVec 8) : Bool := imm8.getLsbD 6

/-- Class `WALK`, `imm8[5:0]`: the walk length. -/
def walkLength (imm8 : BitVec 8) : BitVec 6 := imm8.extractLsb' 0 6

/-- `imm8 = 64·m + e` with `m = 2·A2 + A1` (rules R84, R89). -/
def walkImm (a2 a1 : Bool) (e : BitVec 6) : BitVec 8 :=
  BitVec.ofBool a2 ++ BitVec.ofBool a1 ++ e

/-! ### Selecting a command (rules R84 to R86, step (2) of rule R88) -/

/-- The command `i` when its fields of class `-` are zero, else the refusal of rule R86. -/
def whenUnusedZero (x : Fields) (unusedZero : Bool) (i : Instr) : Except DecodeError Instr :=
  if unusedZero then .ok i else .error (.unusedFieldNonzero x.op)

/-- Rule R84's table: `op` selects the row, and every field of class `-` must be zero. -/
def selectInstr (x : Fields) : Except DecodeError Instr :=
  let noRa := x.ra == 0#6
  let noRb := x.rb == 0#6
  let noImm := x.imm8 == 0#8
  match x.op with
  | 0x01#6 => whenUnusedZero x (noRb && noImm) (.prmConst x.rd x.ra)
  | 0x02#6 => whenUnusedZero x (x.rd == 0#6 && noRa && noRb && noImm) .plock
  | 0x08#6 => whenUnusedZero x (noRb && noImm) (.fpConst x.rd x.ra)
  | 0x09#6 => whenUnusedZero x noImm (.fpAdd x.rd x.ra x.rb)
  | 0x0a#6 => whenUnusedZero x noImm (.fpSub x.rd x.ra x.rb)
  | 0x0b#6 => whenUnusedZero x noImm (.fpMul x.rd x.ra x.rb)
  | 0x0c#6 => whenUnusedZero x (noRb && noImm) (.fpNeg x.rd x.ra)
  | 0x0d#6 => whenUnusedZero x (noRb && noImm) (.fpSqr x.rd x.ra)
  | 0x0e#6 => whenUnusedZero x (noRb && noImm) (.fpInv x.rd x.ra)
  | 0x0f#6 => whenUnusedZero x noImm (.fpPow x.rd x.ra x.rb)
  | 0x10#6 => whenUnusedZero x (noRb && noImm) (.fpSqrt x.rd x.ra)
  | 0x11#6 => whenUnusedZero x noImm (.fpEq x.rd x.ra x.rb)
  | 0x12#6 => whenUnusedZero x (noRb && noImm) (.fpIseven x.rd x.ra)
  | 0x13#6 => whenUnusedZero x noRb (.fpBit x.rd x.ra x.imm8)
  | 0x14#6 => whenUnusedZero x (noRb && noImm) (.fpIsqr x.rd x.ra)
  | 0x18#6 => whenUnusedZero x (noRb && noImm) (.fp2Const x.rd x.ra)
  | 0x19#6 => whenUnusedZero x noImm (.fp2Constp x.rd x.ra x.rb)
  | 0x1a#6 => whenUnusedZero x noImm (.fp2Add x.rd x.ra x.rb)
  | 0x1b#6 => whenUnusedZero x noImm (.fp2Sub x.rd x.ra x.rb)
  | 0x1c#6 => whenUnusedZero x noImm (.fp2Mul x.rd x.ra x.rb)
  | 0x1d#6 => whenUnusedZero x (noRb && noImm) (.fp2Sqr x.rd x.ra)
  | 0x1e#6 => whenUnusedZero x (noRb && noImm) (.fp2Inv x.rd x.ra)
  | 0x1f#6 => whenUnusedZero x (noRb && noImm) (.fp2Neg x.rd x.ra)
  | 0x20#6 => whenUnusedZero x noImm (.fp2Eq x.rd x.ra x.rb)
  | 0x21#6 => whenUnusedZero x (noRb && noImm) (.fp2Sqrt x.rd x.ra)
  | 0x28#6 => whenUnusedZero x (noRb && noImm) (.ptIsinf x.rd x.ra)
  | 0x29#6 => whenUnusedZero x noImm (.xdbl x.rd x.ra x.rb)
  | 0x2a#6 => .ok (.xadd x.rd x.ra x.rb x.imm8)
  | 0x2b#6 => whenUnusedZero x noImm (.xtpl x.rd x.ra x.rb)
  | 0x2c#6 => .ok (.xdble x.rd x.ra x.rb x.imm8)
  | 0x2d#6 => .ok (.xtple x.rd x.ra x.rb x.imm8)
  | 0x2e#6 => .ok (.ladder x.rd x.ra x.rb (ladderScalar x.imm8) (ladderWidth x.imm8))
  | 0x2f#6 => whenUnusedZero x (noRb && noImm) (.jinv x.rd x.ra)
  | 0x30#6 => whenUnusedZero x noImm (.curve2iso x.rd x.ra x.rb)
  | 0x31#6 => whenUnusedZero x noImm (.eval2iso x.rd x.ra x.rb)
  | 0x32#6 => whenUnusedZero x noImm (.curve3iso x.rd x.ra x.rb)
  | 0x33#6 => whenUnusedZero x noImm (.eval3iso x.rd x.ra x.rb)
  | 0x34#6 => whenUnusedZero x noImm (.curve4iso x.rd x.ra x.rb)
  | 0x35#6 => whenUnusedZero x noImm (.eval4iso x.rd x.ra x.rb)
  | 0x36#6 => .ok (.iso2e x.rd x.ra x.rb (walkA2 x.imm8) (walkA1 x.imm8) (walkLength x.imm8))
  | 0x37#6 => .ok (.iso3e x.rd x.ra x.rb (walkA2 x.imm8) (walkA1 x.imm8) (walkLength x.imm8))
  | 0x38#6 => .ok (.getxr x.rd x.ra x.rb x.imm8)
  | 0x39#6 => whenUnusedZero x (noRb && noImm) (.recover x.rd x.ra)
  | 0x3a#6 => whenUnusedZero x (noRb && noImm) (.isogen2 x.rd x.ra)
  | 0x3b#6 => whenUnusedZero x (noRb && noImm) (.isogen3 x.rd x.ra)
  | 0x3c#6 => whenUnusedZero x noImm (.isoex2 x.rd x.ra x.rb)
  | 0x3d#6 => whenUnusedZero x noImm (.isoex3 x.rd x.ra x.rb)
  | _ => .error (.reservedOpcode x.op)

/-- Steps (1) and (2) of rule R88, total on every word: the command the word selects, or why it selects none.
Whether the selected command's operand fields are legal is step (3), `operandsLegal`. -/
def decode (c : Word) : Except DecodeError Instr := selectInstr (splitFields c)

/-- The command the decoder reads from the low `nbits` bits of `w`, bits above them zero. -/
def decodeTableWord (nbits w : Nat) : Option Instr :=
  match decode (BitVec.ofNat 32 (w % 2 ^ nbits)) with
  | .ok i => some i
  | .error _ => none

/-! ### Operand classes (rules R82, R83, step (3) of rule R88) -/

/-- Class `Z`: even. -/
def legalZ (v : ZReg) : Bool := v.toNat % 2 == 0

/-- Class `Q`: a multiple of 4. -/
def legalQ (v : QReg) : Bool := v.toNat % 4 == 0

/-- Class `QC`: a multiple of 4 and at most 60. -/
def legalQC (v : QcReg) : Bool := v.toNat % 4 == 0 && decide (v.toNat ≤ 60)

/-- Class `PK`: even and at most 58. -/
def legalPK (v : PkReg) : Bool := v.toNat % 2 == 0 && decide (v.toNat ≤ 58)

/-- Class `T3`: a multiple of 4 and at most 52. -/
def legalT3 (v : T3Reg) : Bool := v.toNat % 4 == 0 && decide (v.toNat ≤ 52)

/-- Class `W`: 0 to 7. -/
def legalW (v : WReg) : Bool := decide (v.toNat < 8)

/-- Class `S`: 0 to 19. -/
def legalS (v : Slot) : Bool := decide (v.toNat < 20)

/-- The word indices of the quads a walk uses: curve, generator, and each auxiliary point that is present (rule R209). -/
def walkRegs (qc qs qa : QReg) (a2 a1 : Bool) : List Nat :=
  [qc.toNat, qs.toNat] ++ (if a1 then [qa.toNat] else []) ++ (if a2 then [qa.toNat + 4] else [])

/-- The conditions of rule R83 on a walk: three `Q` fields, room for auxiliary point 2, pairwise different registers. -/
def legalWalk (qc qs qa : QReg) (a2 a1 : Bool) : Bool :=
  legalQ qc && legalQ qs && legalQ qa && !(a2 && decide (56 < qa.toNat)) && decide (walkRegs qc qs qa a2 a1).Nodup

/-- Step (3) of rule R88: every operand field legal for its class in rule R84's table. -/
def operandsLegal : Instr → Bool
  | .prmConst slot ws => legalS slot && legalW ws
  | .plock => true
  | .fpConst _ ws => legalW ws
  | .fpAdd _ _ _ => true
  | .fpSub _ _ _ => true
  | .fpMul _ _ _ => true
  | .fpNeg _ _ => true
  | .fpSqr _ _ => true
  | .fpInv _ _ => true
  | .fpPow _ _ ws => legalW ws
  | .fpSqrt _ _ => true
  | .fpEq wd _ _ => legalW wd
  | .fpIseven wd _ => legalW wd
  | .fpBit wd _ _ => legalW wd
  | .fpIsqr wd _ => legalW wd
  | .fp2Const zd ws => legalZ zd && legalW ws
  | .fp2Constp zd ws wt => legalZ zd && legalW ws && legalW wt
  | .fp2Add zd za zb => legalZ zd && legalZ za && legalZ zb
  | .fp2Sub zd za zb => legalZ zd && legalZ za && legalZ zb
  | .fp2Mul zd za zb => legalZ zd && legalZ za && legalZ zb
  | .fp2Sqr zd za => legalZ zd && legalZ za
  | .fp2Inv zd za => legalZ zd && legalZ za
  | .fp2Neg zd za => legalZ zd && legalZ za
  | .fp2Eq wd za zb => legalW wd && legalZ za && legalZ zb
  | .fp2Sqrt zd za => legalZ zd && legalZ za
  | .ptIsinf wd qa => legalW wd && legalQ qa
  | .xdbl qd qc qa => legalQ qd && legalQ qc && legalQ qa
  | .xadd qd qc qa qb => legalQ qd && legalQ qc && legalQ qa && legalQC qb
  | .xtpl qd qc qa => legalQ qd && legalQ qc && legalQ qa
  | .xdble qd qc qa _ => legalQ qd && legalQ qc && legalQ qa
  | .xtple qd qc qa _ => legalQ qd && legalQ qc && legalQ qa
  | .ladder qd qc qa _ _ => legalQ qd && legalQ qc && legalQ qa
  | .jinv zd qc => legalZ zd && legalQ qc
  | .curve2iso qd qk qc => legalQ qd && legalQ qk && legalQ qc
  | .eval2iso qd qk qa => legalQ qd && legalQ qk && legalQ qa
  | .curve3iso qd qk qc => legalQ qd && legalQ qk && legalQ qc
  | .eval3iso qd qk qa => legalQ qd && legalQ qk && legalQ qa
  | .curve4iso qd qk qc => legalQ qd && legalQ qk && legalQ qc
  | .eval4iso qd qk qa => legalQ qd && legalQ qk && legalQ qa
  | .iso2e qc qs qa a2 a1 _ => legalWalk qc qs qa a2 a1
  | .iso3e qc qs qa a2 a1 _ => legalWalk qc qs qa a2 a1
  | .getxr zd qc qa qb => legalPK zd && legalQ qc && legalQ qa && legalQC qb
  | .recover qd za => legalT3 qd && legalPK za
  | .isogen2 zd ws => legalPK zd && legalW ws
  | .isogen3 zd ws => legalPK zd && legalW ws
  | .isoex2 zd za ws => legalZ zd && legalPK za && legalW ws
  | .isoex3 zd za ws => legalZ zd && legalPK za && legalW ws

/-! ### The encoder (rules R81, R83, R84) -/

/-- The fields of a command's word: its opcode, its operands, zero in every field of class `-`. -/
def instrFields : Instr → Fields
  | .prmConst slot ws => ⟨0x01, slot, ws, 0, 0⟩
  | .plock => ⟨0x02, 0, 0, 0, 0⟩
  | .fpConst fd ws => ⟨0x08, fd, ws, 0, 0⟩
  | .fpAdd fd fa fb => ⟨0x09, fd, fa, fb, 0⟩
  | .fpSub fd fa fb => ⟨0x0a, fd, fa, fb, 0⟩
  | .fpMul fd fa fb => ⟨0x0b, fd, fa, fb, 0⟩
  | .fpNeg fd fa => ⟨0x0c, fd, fa, 0, 0⟩
  | .fpSqr fd fa => ⟨0x0d, fd, fa, 0, 0⟩
  | .fpInv fd fa => ⟨0x0e, fd, fa, 0, 0⟩
  | .fpPow fd fa ws => ⟨0x0f, fd, fa, ws, 0⟩
  | .fpSqrt fd fa => ⟨0x10, fd, fa, 0, 0⟩
  | .fpEq wd fa fb => ⟨0x11, wd, fa, fb, 0⟩
  | .fpIseven wd fa => ⟨0x12, wd, fa, 0, 0⟩
  | .fpBit wd fa bit => ⟨0x13, wd, fa, 0, bit⟩
  | .fpIsqr wd fa => ⟨0x14, wd, fa, 0, 0⟩
  | .fp2Const zd ws => ⟨0x18, zd, ws, 0, 0⟩
  | .fp2Constp zd ws wt => ⟨0x19, zd, ws, wt, 0⟩
  | .fp2Add zd za zb => ⟨0x1a, zd, za, zb, 0⟩
  | .fp2Sub zd za zb => ⟨0x1b, zd, za, zb, 0⟩
  | .fp2Mul zd za zb => ⟨0x1c, zd, za, zb, 0⟩
  | .fp2Sqr zd za => ⟨0x1d, zd, za, 0, 0⟩
  | .fp2Inv zd za => ⟨0x1e, zd, za, 0, 0⟩
  | .fp2Neg zd za => ⟨0x1f, zd, za, 0, 0⟩
  | .fp2Eq wd za zb => ⟨0x20, wd, za, zb, 0⟩
  | .fp2Sqrt zd za => ⟨0x21, zd, za, 0, 0⟩
  | .ptIsinf wd qa => ⟨0x28, wd, qa, 0, 0⟩
  | .xdbl qd qc qa => ⟨0x29, qd, qc, qa, 0⟩
  | .xadd qd qc qa qb => ⟨0x2a, qd, qc, qa, qb⟩
  | .xtpl qd qc qa => ⟨0x2b, qd, qc, qa, 0⟩
  | .xdble qd qc qa n => ⟨0x2c, qd, qc, qa, n⟩
  | .xtple qd qc qa n => ⟨0x2d, qd, qc, qa, n⟩
  | .ladder qd qc qa ws msb => ⟨0x2e, qd, qc, qa, ladderImm ws msb⟩
  | .jinv zd qc => ⟨0x2f, zd, qc, 0, 0⟩
  | .curve2iso qd qk qc => ⟨0x30, qd, qk, qc, 0⟩
  | .eval2iso qd qk qa => ⟨0x31, qd, qk, qa, 0⟩
  | .curve3iso qd qk qc => ⟨0x32, qd, qk, qc, 0⟩
  | .eval3iso qd qk qa => ⟨0x33, qd, qk, qa, 0⟩
  | .curve4iso qd qk qc => ⟨0x34, qd, qk, qc, 0⟩
  | .eval4iso qd qk qa => ⟨0x35, qd, qk, qa, 0⟩
  | .iso2e qc qs qa a2 a1 e => ⟨0x36, qc, qs, qa, walkImm a2 a1 e⟩
  | .iso3e qc qs qa a2 a1 e => ⟨0x37, qc, qs, qa, walkImm a2 a1 e⟩
  | .getxr zd qc qa qb => ⟨0x38, zd, qc, qa, qb⟩
  | .recover qd za => ⟨0x39, qd, za, 0, 0⟩
  | .isogen2 zd ws => ⟨0x3a, zd, ws, 0, 0⟩
  | .isogen3 zd ws => ⟨0x3b, zd, ws, 0, 0⟩
  | .isoex2 zd za ws => ⟨0x3c, zd, za, ws, 0⟩
  | .isoex3 zd za ws => ⟨0x3d, zd, za, ws, 0⟩

/-- The command word of an instruction. -/
def encode (i : Instr) : Word := joinFields (instrFields i)

/-! ### The machine-readable table (rule R86) -/

/-- One row of `opcode_table.json`: a word `c` selects the row iff `c AND mask = pattern` (rule R86). -/
def rowSelects (row : String × Word × Word) (c : Word) : Bool := c &&& row.2.2 == row.2.1

/-- The rows of opcodes 0x01 to 0x02: mnemonic, pattern (`match` of the table), mask. -/
def opcodeRowsSetup : List (String × Word × Word) :=
  [("PRM_CONST", 0x04000000, 0xfc003fff),
   ("PLOCK", 0x08000000, 0xffffffff)]

/-- The rows of opcodes 0x08 to 0x14: mnemonic, pattern (`match` of the table), mask. -/
def opcodeRowsFp : List (String × Word × Word) :=
  [("FP_CONST", 0x20000000, 0xfc003fff),
   ("FP_ADD", 0x24000000, 0xfc0000ff),
   ("FP_SUB", 0x28000000, 0xfc0000ff),
   ("FP_MUL", 0x2c000000, 0xfc0000ff),
   ("FP_NEG", 0x30000000, 0xfc003fff),
   ("FP_SQR", 0x34000000, 0xfc003fff),
   ("FP_INV", 0x38000000, 0xfc003fff),
   ("FP_POW", 0x3c000000, 0xfc0000ff),
   ("FP_SQRT", 0x40000000, 0xfc003fff),
   ("FP_EQ", 0x44000000, 0xfc0000ff),
   ("FP_ISEVEN", 0x48000000, 0xfc003fff),
   ("FP_BIT", 0x4c000000, 0xfc003f00),
   ("FP_ISQR", 0x50000000, 0xfc003fff)]

/-- The rows of opcodes 0x18 to 0x21: mnemonic, pattern (`match` of the table), mask. -/
def opcodeRowsFp2 : List (String × Word × Word) :=
  [("FP2_CONST", 0x60000000, 0xfc003fff),
   ("FP2_CONSTP", 0x64000000, 0xfc0000ff),
   ("FP2_ADD", 0x68000000, 0xfc0000ff),
   ("FP2_SUB", 0x6c000000, 0xfc0000ff),
   ("FP2_MUL", 0x70000000, 0xfc0000ff),
   ("FP2_SQR", 0x74000000, 0xfc003fff),
   ("FP2_INV", 0x78000000, 0xfc003fff),
   ("FP2_NEG", 0x7c000000, 0xfc003fff),
   ("FP2_EQ", 0x80000000, 0xfc0000ff),
   ("FP2_SQRT", 0x84000000, 0xfc003fff)]

/-- The rows of opcodes 0x28 to 0x2f: mnemonic, pattern (`match` of the table), mask. -/
def opcodeRowsCurve : List (String × Word × Word) :=
  [("PT_ISINF", 0xa0000000, 0xfc003fff),
   ("XDBL", 0xa4000000, 0xfc0000ff),
   ("XADD", 0xa8000000, 0xfc000000),
   ("XTPL", 0xac000000, 0xfc0000ff),
   ("XDBLE", 0xb0000000, 0xfc000000),
   ("XTPLE", 0xb4000000, 0xfc000000),
   ("LADDER", 0xb8000000, 0xfc000000),
   ("JINV", 0xbc000000, 0xfc003fff)]

/-- The rows of opcodes 0x30 to 0x37: mnemonic, pattern (`match` of the table), mask. -/
def opcodeRowsIsogeny : List (String × Word × Word) :=
  [("CURVE2ISO", 0xc0000000, 0xfc0000ff),
   ("EVAL2ISO", 0xc4000000, 0xfc0000ff),
   ("CURVE3ISO", 0xc8000000, 0xfc0000ff),
   ("EVAL3ISO", 0xcc000000, 0xfc0000ff),
   ("CURVE4ISO", 0xd0000000, 0xfc0000ff),
   ("EVAL4ISO", 0xd4000000, 0xfc0000ff),
   ("ISO2E", 0xd8000000, 0xfc000000),
   ("ISO3E", 0xdc000000, 0xfc000000)]

/-- The rows of opcodes 0x38 to 0x3d: mnemonic, pattern (`match` of the table), mask. -/
def opcodeRowsProtocol : List (String × Word × Word) :=
  [("GETXR", 0xe0000000, 0xfc000000),
   ("RECOVER", 0xe4000000, 0xfc003fff),
   ("ISOGEN2", 0xe8000000, 0xfc003fff),
   ("ISOGEN3", 0xec000000, 0xfc003fff),
   ("ISOEX2", 0xf0000000, 0xfc0000ff),
   ("ISOEX3", 0xf4000000, 0xfc0000ff)]

/-- The 47 rows of rule R84 with the match and mask of `opcode_table.json`. -/
def opcodeRows : List (String × Word × Word) :=
  opcodeRowsSetup ++ opcodeRowsFp ++ opcodeRowsFp2 ++ opcodeRowsCurve ++ opcodeRowsIsogeny ++ opcodeRowsProtocol

/-- The mnemonic of a command's row in rule R84. -/
def mnemonic : Instr → String
  | .prmConst _ _ => "PRM_CONST"
  | .plock => "PLOCK"
  | .fpConst _ _ => "FP_CONST"
  | .fpAdd _ _ _ => "FP_ADD"
  | .fpSub _ _ _ => "FP_SUB"
  | .fpMul _ _ _ => "FP_MUL"
  | .fpNeg _ _ => "FP_NEG"
  | .fpSqr _ _ => "FP_SQR"
  | .fpInv _ _ => "FP_INV"
  | .fpPow _ _ _ => "FP_POW"
  | .fpSqrt _ _ => "FP_SQRT"
  | .fpEq _ _ _ => "FP_EQ"
  | .fpIseven _ _ => "FP_ISEVEN"
  | .fpBit _ _ _ => "FP_BIT"
  | .fpIsqr _ _ => "FP_ISQR"
  | .fp2Const _ _ => "FP2_CONST"
  | .fp2Constp _ _ _ => "FP2_CONSTP"
  | .fp2Add _ _ _ => "FP2_ADD"
  | .fp2Sub _ _ _ => "FP2_SUB"
  | .fp2Mul _ _ _ => "FP2_MUL"
  | .fp2Sqr _ _ => "FP2_SQR"
  | .fp2Inv _ _ => "FP2_INV"
  | .fp2Neg _ _ => "FP2_NEG"
  | .fp2Eq _ _ _ => "FP2_EQ"
  | .fp2Sqrt _ _ => "FP2_SQRT"
  | .ptIsinf _ _ => "PT_ISINF"
  | .xdbl _ _ _ => "XDBL"
  | .xadd _ _ _ _ => "XADD"
  | .xtpl _ _ _ => "XTPL"
  | .xdble _ _ _ _ => "XDBLE"
  | .xtple _ _ _ _ => "XTPLE"
  | .ladder _ _ _ _ _ => "LADDER"
  | .jinv _ _ => "JINV"
  | .curve2iso _ _ _ => "CURVE2ISO"
  | .eval2iso _ _ _ => "EVAL2ISO"
  | .curve3iso _ _ _ => "CURVE3ISO"
  | .eval3iso _ _ _ => "EVAL3ISO"
  | .curve4iso _ _ _ => "CURVE4ISO"
  | .eval4iso _ _ _ => "EVAL4ISO"
  | .iso2e _ _ _ _ _ _ => "ISO2E"
  | .iso3e _ _ _ _ _ _ => "ISO3E"
  | .getxr _ _ _ _ => "GETXR"
  | .recover _ _ => "RECOVER"
  | .isogen2 _ _ => "ISOGEN2"
  | .isogen3 _ _ => "ISOGEN3"
  | .isoex2 _ _ _ => "ISOEX2"
  | .isoex3 _ _ _ => "ISOEX3"

end Sys2Proof
end

