-- ==== Sys2Proof/WellFormed.lean ====
section
/-! DEFINITION. Well-formed commands: those whose operand fields are legal for their classes (rules R28, R82, R83).
The check itself is `operandsLegal` of `Decode.lean`, which the machine evaluates on every command. -/

namespace Sys2Proof

/-- Every operand field of the command is legal for its class. -/
abbrev Instr.WellFormed (i : Instr) : Prop := operandsLegal i = true

end Sys2Proof
end

