-- ==== Sys2Proof/Machine/State.lean ====
section
/-! DEFINITION. The state of the Fp core (rules R15, R27 to R36), the host's side of it, and the state after reset. -/

namespace Sys2Proof.Machine

/-- What the outside world does to the core: the two transactions of rule R51, and the power-on reset of rule R290. -/
inductive HostEvent where
  /-- `PortRead(pa)`. -/
  | portRead (pa : BitVec 8)
  /-- `PortWrite(pa, v)`. -/
  | portWrite (pa : BitVec 8) (v : Word)
  /-- Power is lost and comes back: a reset (rules R277, R290; DESIGN CHOICE, assumption 2). -/
  | powerOn
  deriving DecidableEq, Repr

/-- The core's registers, then three fields of the model's own (`pending`, `txnIndex`, `replies`) for the host (DESIGN CHOICE,
assumption 1). Plain data. -/
structure State where
  /-- The field-element registers `f[0]` to `f[63]` (rule R27). -/
  f : Vector Word 64
  /-- The integer registers `w[0]` to `w[7]` (rule R29). -/
  w : Vector Word 8
  /-- The parameter bank `prm[0]` to `prm[19]` (rule R31). -/
  prm : Vector Word 20
  /-- STATUS.LOCKED (rule R32). -/
  locked : Bool
  /-- STATUS.FAULT (rule R32). -/
  fault : Bool
  /-- STATUS.ERRCODE (rule R32). -/
  errcode : BitVec 4
  /-- ERRCMD (rule R33). -/
  errcmd : Word
  /-- What the host still does, the next event first (rules R14, R30: the host's list of transactions). -/
  pending : List HostEvent
  /-- The index of the next event in the host's list (rule R30). Nothing in the core reads it. -/
  txnIndex : Nat
  /-- The words that port reads have returned, the latest first (rule R51). Nothing in the core reads them. -/
  replies : List Word
  deriving DecidableEq, Repr

/-- Why the machine would stop. No constructor: every word written to the core and every port access has an effect
(rules R55, R87), and the faults of rule R261 are states the core goes on from (`FaultCause`), not stops (DEDUCED,
assumption 13). -/
inductive Fault
  deriving DecidableEq, Repr

/-- Why a step would have no meaning. -/
inductive Refusal where
  /-- An instruction of the table without a meaning yet, raised by its arm of `exec` only. Safe: nothing is claimed of
  it. No arm raises it in this model. -/
  | notModelled (mnemonic : String)
  deriving DecidableEq, Repr

/-- One outcome of a step of this machine. -/
abbrev Outcome := Host.Outcome State Fault Refusal

/-- The five faults of rule R261. Raising one is a next state (`raiseFault`), as rule R262 describes. -/
inductive FaultCause where
  /-- Code 1: `op` is reserved or a field of class `-` is not zero (rule R263). -/
  | illegalCommand
  /-- Code 2: a field is illegal for its class, or a walk's registers overlap (rule R264). -/
  | illegalOperand
  /-- Code 3: PRM_CONST or PLOCK while STATUS.LOCKED = 1 (rule R265). -/
  | parametersLocked
  /-- Code 4: a protocol command while STATUS.LOCKED = 0 (rule R266). -/
  | parametersNotSetUp
  /-- Code 5: the scalar of a protocol command out of range (rule R267). -/
  | invalidScalarRange
  deriving DecidableEq, Repr

/-- The state right after reset (rules R38, R290): every register, the parameter bank, STATUS and ERRCMD zero. The host
has nothing pending and has read nothing. Zero is the spec's own choice of reset value (assumption 12). -/
def State.reset : State where
  f := Vector.replicate 64 0
  w := Vector.replicate 8 0
  prm := Vector.replicate 20 0
  locked := false
  fault := false
  errcode := 0
  errcmd := 0
  pending := []
  txnIndex := 0
  replies := []

end Sys2Proof.Machine
end

