-- ==== Sys2Proof/Machine/Ops.lean ====
section
/-! DEFINITION. The named operations: register reads and writes, the reset, fault entry, and the checks every command
passes before it executes (rule R260). -/

namespace Sys2Proof.Machine

/-! ### Registers (rules R11, R27, R29, R31)

Indices outside a file name no register: reads of them give 0 and writes to them do nothing. Neither happens in a command
whose operands are legal, and no other command reaches a register (DESIGN CHOICE, assumption 10). -/

/-- The word in `f[i]`. -/
def State.fWord (s : State) (i : Nat) : Word := if h : i < 64 then s.f[i] else 0

/-- The word in `w[i]`. -/
def State.wWord (s : State) (i : Nat) : Word := if h : i < 8 then s.w[i] else 0

/-- The word in `prm[i]`. -/
def State.prmWord (s : State) (i : Nat) : Word := if h : i < 20 then s.prm[i] else 0

/-- `f[i]` as the integer it holds. -/
def State.readF (s : State) (i : Nat) : Nat := (s.fWord i).toNat

/-- `f[i] <- v`. Every `v` a command writes is below `p < 2^28`, so the 32-bit word holds it exactly (rule R20). -/
def State.writeF (s : State) (i : Nat) (v : Nat) : State :=
  { s with f := s.f.setIfInBounds i (BitVec.ofNat 32 v) }

/-- `w[i] <- v`. -/
def State.writeW (s : State) (i : Nat) (v : Word) : State :=
  { s with w := s.w.setIfInBounds i v }

/-- `prm[i]` as the integer it holds. -/
def State.readPrm (s : State) (i : Nat) : Nat := (s.prmWord i).toNat

/-- `prm[i] <- v`. -/
def State.writePrm (s : State) (i : Nat) (v : Nat) : State :=
  { s with prm := s.prm.setIfInBounds i (BitVec.ofNat 32 v) }

/-! ### Reset (rules R36, R38, R290) -/

/-- The core after a reset that comes while the host is at work: every piece of the core's state as after power-on, the
host's own list and what it has read untouched. -/
def State.resetCore (s : State) : State :=
  { State.reset with pending := s.pending, txnIndex := s.txnIndex, replies := s.replies }

/-! ### Faults (rules R261, R262) -/

/-- The code of a fault (rule R261). -/
def faultCode : FaultCause → BitVec 4
  | .illegalCommand => 1
  | .illegalOperand => 2
  | .parametersLocked => 3
  | .parametersNotSetUp => 4
  | .invalidScalarRange => 5

/-- The state after `raise Fault(code)` for the command word `c` (rule R262): STATUS.FAULT, STATUS.ERRCODE and ERRCMD are
written and nothing else. -/
def State.faultEntry (s : State) (cause : FaultCause) (c : Word) : State :=
  { s with fault := true, errcode := faultCode cause, errcmd := c }

/-- Taking a fault: the machine goes on, in the state of `faultEntry`. There is no return from a fault but reset
(rule R269). -/
def raiseFault (cause : FaultCause) (c : Word) (s : State) : Outcome := .next (s.faultEntry cause c)

/-! ### Command acceptance (rule R260; where each check stands: assumption 4) -/

/-- Step (3) of rule R88 for the command `i`, then `effect`. -/
def withLegalOperands (i : Instr) (s : State) (effect : Outcome) : Outcome :=
  if operandsLegal i then effect else raiseFault .illegalOperand (encode i) s

/-- A command that nothing but its operands can stop: the state `t` it computes, or Fault(2). -/
def command (i : Instr) (s t : State) : Outcome := withLegalOperands i s (.next t)

/-- PRM_CONST and PLOCK: Fault(3) while the bank is locked (rules R260, R265). -/
def setupCommand (i : Instr) (s t : State) : Outcome :=
  withLegalOperands i s (if s.locked then raiseFault .parametersLocked (encode i) s else .next t)

/-- The four protocol commands: Fault(4) while the bank is not locked, then Fault(5) for a scalar `k` not below `bound`
(rules R260, R236, R266, R267). -/
def protocolCommand (i : Instr) (k bound : Nat) (s t : State) : Outcome :=
  withLegalOperands i s
    (if !s.locked then raiseFault .parametersNotSetUp (encode i) s
     else if bound ≤ k then raiseFault .invalidScalarRange (encode i) s
     else .next t)

end Sys2Proof.Machine
end

