-- ==== Sys2Proof/Machine/Flags.lean ====
section
/-! DEFINITION. What this core has instead of flags: predicate results in `w` registers (rule R34) and the STATUS word
(rule R32). No command writes a condition code. -/

namespace Sys2Proof.Machine

/-- A predicate's result: the whole word 0 or 1 (rules R29, R34). -/
def predicateWord (b : Bool) : Word := if b then 1 else 0

/-- `w[i] <- 1 if b else 0`. -/
def State.writePredicate (s : State) (i : Nat) (b : Bool) : State := s.writeW i (predicateWord b)

/-- The word the STATUS port reads: LOCKED in bit 0, FAULT in bit 1, ERRCODE in bits 7:4, all others 0 (rule R32). -/
def State.statusWord (s : State) : Word :=
  0#24 ++ s.errcode ++ 0#2 ++ BitVec.ofBool s.fault ++ BitVec.ofBool s.locked

end Sys2Proof.Machine
end

