-- ==== Sys2Proof/Machine/Operands.lean ====
section
/-! DEFINITION. The operand views: `z`, `q`, `pk`, `t3` over the `f` file and the layout of the parameter bank
(rules R11, R21, R22, R23, R25, R28, R31, R230). Every view is named by the word index of its first word. -/

namespace Sys2Proof.Machine

/-- `z[r] = (f[r], f[r+1])`. -/
def State.readZ (s : State) (r : Nat) : Fp2 := ⟨s.readF r, s.readF (r + 1)⟩

/-- `z[r] <- v`. -/
def State.writeZ (s : State) (r : Nat) (v : Fp2) : State := (s.writeF r v.x0).writeF (r + 1) v.x1

/-- `q[r]` read as a point: `(z[r], z[r+2])`. -/
def State.readPoint (s : State) (r : Nat) : Point := ⟨s.readZ r, s.readZ (r + 2)⟩

/-- `q[r]` written with a point. -/
def State.writePoint (s : State) (r : Nat) (P : Point) : State := (s.writeZ r P.x).writeZ (r + 2) P.y

/-- `q[r]` read as a curve: `(z[r], z[r+2])`. -/
def State.readCurve (s : State) (r : Nat) : Curve := ⟨s.readZ r, s.readZ (r + 2)⟩

/-- `q[r]` written with a curve. -/
def State.writeCurve (s : State) (r : Nat) (E : Curve) : State := (s.writeZ r E.a).writeZ (r + 2) E.b

/-- `pk[r] = (z[r], z[r+2], z[r+4])`. -/
def State.readPk (s : State) (r : Nat) : PublicKey := ⟨s.readZ r, s.readZ (r + 2), s.readZ (r + 4)⟩

/-- `pk[r] <- k`. -/
def State.writePk (s : State) (r : Nat) (k : PublicKey) : State :=
  ((s.writeZ r k.xP).writeZ (r + 2) k.xQ).writeZ (r + 4) k.xR

/-- `t3[r] <- (E, P, Q)`: three quads in a row. -/
def State.writeT3 (s : State) (r : Nat) (E : Curve) (P Q : Point) : State :=
  ((s.writeCurve r E).writePoint (r + 4) P).writePoint (r + 8) Q

/-- `q[r]` written if there is a point to write: a walk's auxiliary point (rule R209). -/
def State.writePointIf (s : State) (r : Nat) : Option Point → State
  | some P => s.writePoint r P
  | none => s

/-- The pair `(prm[i], prm[i+1])`. -/
def State.prmPair (s : State) (i : Nat) : Fp2 := ⟨s.readPrm i, s.readPrm (i + 1)⟩

/-- The point at `prm[i]` to `prm[i+3]`. -/
def State.prmPoint (s : State) (i : Nat) : Point := ⟨s.prmPair i, s.prmPair (i + 2)⟩

/-- `E0`, the start curve `(A0, B0)` of the bank (rules R31, R233). -/
def State.startCurve (s : State) : Curve := ⟨s.prmPair 0, s.prmPair 2⟩

/-- `P2` of the bank (rule R31). -/
def State.baseP2 (s : State) : Point := s.prmPoint 4

/-- `Q2` of the bank (rule R31). -/
def State.baseQ2 (s : State) : Point := s.prmPoint 8

/-- `P3` of the bank (rule R31). -/
def State.baseP3 (s : State) : Point := s.prmPoint 12

/-- `Q3` of the bank (rule R31). -/
def State.baseQ3 (s : State) : Point := s.prmPoint 16

end Sys2Proof.Machine
end

