-- ==== Sys2Proof/Machine/Fp.lean ====
section
/-! DEFINITION. The Fp unit (rules R110 to R127): arithmetic modulo `p`, then the meanings of FP_CONST to FP_ISQR.
Every function computes on exact integers and reduces once, at its end. -/

namespace Sys2Proof.Machine

open Config (p)

/-! ### Arithmetic -/

/-- The reducer `red` (rule R110): the residue of an integer in `[0, p)`. -/
def red (v : Nat) : Nat := v % p

/-- The residue in `[0, p)` of any integer, a negative one included (rule R10). -/
def redInt (v : Int) : Nat := (v % (p : Int)).toNat

/-- `fp_add` (rule R112). -/
def fpAdd (a b : Nat) : Nat := red (a + b)

/-- `fp_sub` (rule R113). -/
def fpSub (a b : Nat) : Nat := redInt ((a : Int) - (b : Int))

/-- `fp_mul` (rule R114). -/
def fpMul (a b : Nat) : Nat := red (a * b)

/-- `fp_neg` (rule R115). -/
def fpNeg (a : Nat) : Nat := redInt (-(a : Int))

/-- `fp_sqr` (rule R116). -/
def fpSqr (a : Nat) : Nat := fpMul a a

/-- The loop of `fp_pow` with `n` exponent bits left to scan, bit `n − 1` next, and the running result `r` (rule R118). -/
def fpPowLoop (a e : Nat) : Nat → Nat → Nat
  | 0, r => r
  | n + 1, r => fpPowLoop a e n (if e.testBit n then fpMul (fpMul r r) a else fpMul r r)

/-- `fp_pow`: always 32 steps, most significant exponent bit first (rule R118). -/
def fpPow (a : Nat) (e : Nat) : Nat := fpPowLoop a e 32 1

/-- `fp_inv`: the power `p − 2`, so the inverse of 0 is 0 (rule R117). -/
def fpInv (a : Nat) : Nat := fpPow a Config.invExp

/-- The even test (rule R122). -/
def fpIseven (a : Nat) : Bool := a % 2 == 0

/-- `fp_sqrt`: the power `(p + 1) / 4`, negated if odd, on every operand (rule R120; conflict C1; assumption 8). -/
def fpSqrt (a : Nat) : Nat :=
  let t := fpPow a Config.sqrtExp
  if fpIseven t then t else fpNeg t

/-- `fp_isqr`: the residue test (rule R124). -/
def fpIsqr (a : Nat) : Bool := fpSqr (fpSqrt a) == a

/-- `floor(a / 2^i) mod 2` (rule R123). -/
def fpBit (a : Nat) (i : Nat) : Bool := a / 2 ^ i % 2 == 1

/-- Constant construction: the raw word reduced (rule R125). -/
def fpConst (v : Word) : Nat := red v.toNat

/-- Division by the constant 2 (rule R151). -/
def fpHalf (a : Nat) : Nat := fpMul a Config.inv2

/-! ### Commands -/

/-- FP_CONST fd, ws (rule R125). -/
def execFpConst (fd : FReg) (ws : WReg) (s : State) : Outcome :=
  command (.fpConst fd ws) s (s.writeF fd.toNat (fpConst (s.wWord ws.toNat)))

/-- FP_ADD fd, fa, fb (rule R112). -/
def execFpAdd (fd fa fb : FReg) (s : State) : Outcome :=
  command (.fpAdd fd fa fb) s (s.writeF fd.toNat (fpAdd (s.readF fa.toNat) (s.readF fb.toNat)))

/-- FP_SUB fd, fa, fb (rule R113). -/
def execFpSub (fd fa fb : FReg) (s : State) : Outcome :=
  command (.fpSub fd fa fb) s (s.writeF fd.toNat (fpSub (s.readF fa.toNat) (s.readF fb.toNat)))

/-- FP_MUL fd, fa, fb (rule R114). -/
def execFpMul (fd fa fb : FReg) (s : State) : Outcome :=
  command (.fpMul fd fa fb) s (s.writeF fd.toNat (fpMul (s.readF fa.toNat) (s.readF fb.toNat)))

/-- FP_NEG fd, fa (rule R115). -/
def execFpNeg (fd fa : FReg) (s : State) : Outcome :=
  command (.fpNeg fd fa) s (s.writeF fd.toNat (fpNeg (s.readF fa.toNat)))

/-- FP_SQR fd, fa (rule R116). -/
def execFpSqr (fd fa : FReg) (s : State) : Outcome :=
  command (.fpSqr fd fa) s (s.writeF fd.toNat (fpSqr (s.readF fa.toNat)))

/-- FP_INV fd, fa (rule R117). -/
def execFpInv (fd fa : FReg) (s : State) : Outcome :=
  command (.fpInv fd fa) s (s.writeF fd.toNat (fpInv (s.readF fa.toNat)))

/-- FP_POW fd, fa, ws: the exponent is the raw word (rule R118). -/
def execFpPow (fd fa : FReg) (ws : WReg) (s : State) : Outcome :=
  command (.fpPow fd fa ws) s (s.writeF fd.toNat (fpPow (s.readF fa.toNat) (s.wWord ws.toNat).toNat))

/-- FP_SQRT fd, fa (rule R120). -/
def execFpSqrt (fd fa : FReg) (s : State) : Outcome :=
  command (.fpSqrt fd fa) s (s.writeF fd.toNat (fpSqrt (s.readF fa.toNat)))

/-- FP_EQ wd, fa, fb (rule R121). -/
def execFpEq (wd : WReg) (fa fb : FReg) (s : State) : Outcome :=
  command (.fpEq wd fa fb) s (s.writePredicate wd.toNat (s.readF fa.toNat == s.readF fb.toNat))

/-- FP_ISEVEN wd, fa (rule R122). -/
def execFpIseven (wd : WReg) (fa : FReg) (s : State) : Outcome :=
  command (.fpIseven wd fa) s (s.writePredicate wd.toNat (fpIseven (s.readF fa.toNat)))

/-- FP_BIT wd, fa, i (rule R123). -/
def execFpBit (wd : WReg) (fa : FReg) (bit : BitVec 8) (s : State) : Outcome :=
  command (.fpBit wd fa bit) s (s.writePredicate wd.toNat (fpBit (s.readF fa.toNat) bit.toNat))

/-- FP_ISQR wd, fa (rule R124). -/
def execFpIsqr (wd : WReg) (fa : FReg) (s : State) : Outcome :=
  command (.fpIsqr wd fa) s (s.writePredicate wd.toNat (fpIsqr (s.readF fa.toNat)))

end Sys2Proof.Machine
end

