-- ==== Sys2Proof/Machine/ParamSetup.lean ====
section
/-! DEFINITION. Parameter setup: the meanings of PRM_CONST and PLOCK (rules R250, R252, R253). -/

namespace Sys2Proof.Machine

/-- PRM_CONST slot, ws (rule R250). -/
def execPrmConst (slot : Slot) (ws : WReg) (s : State) : Outcome :=
  setupCommand (.prmConst slot ws) s (s.writePrm slot.toNat (fpConst (s.wWord ws.toNat)))

/-- PLOCK: sets STATUS.LOCKED and nothing else, whatever the bank holds (rule R252). -/
def execPlock (s : State) : Outcome :=
  setupCommand .plock s { s with locked := true }

end Sys2Proof.Machine
end

