-- ==== Sys2Proof/Machine/Fp2.lean ====
section
/-! DEFINITION. The Fp2 unit (rules R140 to R152): arithmetic on pairs, then the meanings of FP2_CONST to FP2_SQRT. -/

namespace Sys2Proof.Machine

/-! ### Arithmetic -/

/-- `fp2_add` (rule R141). -/
def fp2Add (a b : Fp2) : Fp2 := ⟨fpAdd a.x0 b.x0, fpAdd a.x1 b.x1⟩

/-- `fp2_sub` (rule R142). -/
def fp2Sub (a b : Fp2) : Fp2 := ⟨fpSub a.x0 b.x0, fpSub a.x1 b.x1⟩

/-- `fp2_mul`, by three multiplications (rule R143). -/
def fp2Mul (a b : Fp2) : Fp2 :=
  let t0 := fpMul a.x0 b.x0
  let t1 := fpMul a.x1 b.x1
  let t2 := fpMul (fpAdd a.x0 a.x1) (fpAdd b.x0 b.x1)
  ⟨fpSub t0 t1, fpSub (fpSub t2 t0) t1⟩

/-- `fp2_sqr` (rule R144). -/
def fp2Sqr (a : Fp2) : Fp2 := fp2Mul a a

/-- The norm `a0² + a1²` (rules R145, R150). -/
def fp2Norm (a : Fp2) : Nat := fpAdd (fpSqr a.x0) (fpSqr a.x1)

/-- `fp2_inv`, through the norm; the inverse of (0, 0) is (0, 0) (rule R145). -/
def fp2Inv (a : Fp2) : Fp2 :=
  let ni := fpInv (fp2Norm a)
  ⟨fpMul a.x0 ni, fpMul (fpNeg a.x1) ni⟩

/-- `fp2_neg` (rule R146). -/
def fp2Neg (a : Fp2) : Fp2 := ⟨fpNeg a.x0, fpNeg a.x1⟩

/-- `fp2_div`: a zero divisor gives (0, 0) (rule R151). -/
def fp2Div (a b : Fp2) : Fp2 := fp2Mul a (fp2Inv b)

/-- `fp2_half` (rule R151). -/
def fp2Half (a : Fp2) : Fp2 := ⟨fpHalf a.x0, fpHalf a.x1⟩

/-- `k2(n)`, the small integer constants of the formulas (rule R151). -/
def k2 (n : Nat) : Fp2 := ⟨red n, 0⟩

/-- The pair (0, 0). -/
def fp2Zero : Fp2 := ⟨0, 0⟩

/-- The general case (b) of `fp2_sqrt` before its last step: the branch the test `t1² = t0` selects (rule R150). -/
def fp2SqrtBranch (x : Fp2) : Fp2 :=
  let alpha := fpSqrt (fp2Norm x)
  let t0 := fpHalf (fpAdd x.x0 alpha)
  let t1 := fpPow t0 Config.sqrtExp
  let t2 := fpHalf (fpMul (fpPow t0 Config.sqrtExpMinusOne) x.x1)
  if fpSqr t1 = t0 then ⟨t1, t2⟩ else ⟨t2, fpNeg t1⟩

/-- `fp2_sqrt` (rule R150; conflict C7; assumption 8): case (a) for a real non-residue, returned as it is; else the branch of case (b),
negated if its real part is odd. -/
def fp2Sqrt (x : Fp2) : Fp2 :=
  if x.x1 = 0 ∧ fpIsqr x.x0 = false then ⟨0, fpSqrt x.x0⟩
  else
    let r := fp2SqrtBranch x
    if fpIseven r.x0 then r else fp2Neg r

/-! ### Commands -/

/-- FP2_CONST zd, ws (rule R148). -/
def execFp2Const (zd : ZReg) (ws : WReg) (s : State) : Outcome :=
  command (.fp2Const zd ws) s (s.writeZ zd.toNat ⟨fpConst (s.wWord ws.toNat), 0⟩)

/-- FP2_CONSTP zd, ws, wt (rule R149). -/
def execFp2Constp (zd : ZReg) (ws wt : WReg) (s : State) : Outcome :=
  command (.fp2Constp zd ws wt) s
    (s.writeZ zd.toNat ⟨fpConst (s.wWord ws.toNat), fpConst (s.wWord wt.toNat)⟩)

/-- FP2_ADD zd, za, zb (rule R141). -/
def execFp2Add (zd za zb : ZReg) (s : State) : Outcome :=
  command (.fp2Add zd za zb) s (s.writeZ zd.toNat (fp2Add (s.readZ za.toNat) (s.readZ zb.toNat)))

/-- FP2_SUB zd, za, zb (rule R142). -/
def execFp2Sub (zd za zb : ZReg) (s : State) : Outcome :=
  command (.fp2Sub zd za zb) s (s.writeZ zd.toNat (fp2Sub (s.readZ za.toNat) (s.readZ zb.toNat)))

/-- FP2_MUL zd, za, zb (rule R143). -/
def execFp2Mul (zd za zb : ZReg) (s : State) : Outcome :=
  command (.fp2Mul zd za zb) s (s.writeZ zd.toNat (fp2Mul (s.readZ za.toNat) (s.readZ zb.toNat)))

/-- FP2_SQR zd, za (rule R144). -/
def execFp2Sqr (zd za : ZReg) (s : State) : Outcome :=
  command (.fp2Sqr zd za) s (s.writeZ zd.toNat (fp2Sqr (s.readZ za.toNat)))

/-- FP2_INV zd, za (rule R145). -/
def execFp2Inv (zd za : ZReg) (s : State) : Outcome :=
  command (.fp2Inv zd za) s (s.writeZ zd.toNat (fp2Inv (s.readZ za.toNat)))

/-- FP2_NEG zd, za (rule R146). -/
def execFp2Neg (zd za : ZReg) (s : State) : Outcome :=
  command (.fp2Neg zd za) s (s.writeZ zd.toNat (fp2Neg (s.readZ za.toNat)))

/-- FP2_EQ wd, za, zb (rule R147). -/
def execFp2Eq (wd : WReg) (za zb : ZReg) (s : State) : Outcome :=
  command (.fp2Eq wd za zb) s (s.writePredicate wd.toNat (s.readZ za.toNat == s.readZ zb.toNat))

/-- FP2_SQRT zd, za (rule R150). -/
def execFp2Sqrt (zd za : ZReg) (s : State) : Outcome :=
  command (.fp2Sqrt zd za) s (s.writeZ zd.toNat (fp2Sqrt (s.readZ za.toNat)))

end Sys2Proof.Machine
end

