-- ==== Sys2Proof/Machine/Curve.lean ====
section
/-! DEFINITION. The Montgomery-curve point unit (rules R170 to R179): affine points with the sentinel, then the meanings
of PT_ISINF to JINV. No function checks that a point lies on its curve (rule R24). -/

namespace Sys2Proof.Machine

/-! ### Points -/

/-- `INF`, the sentinel for the point at infinity (rule R22). -/
def inf : Point := ⟨⟨0, 0⟩, ⟨1, 0⟩⟩

/-- `pt_neg`, with no special case for the sentinel (rule R179). -/
def ptNeg (P : Point) : Point := ⟨P.x, fp2Neg P.y⟩

/-- The slope of the tangent at an affine point: `(3x² + 2ax + 1) / (2by)` (rule R172; assumption 9). -/
def tangentSlope (E : Curve) (P : Point) : Fp2 :=
  let num := fp2Add (fp2Add (fp2Mul (k2 3) (fp2Sqr P.x)) (fp2Mul (fp2Mul (k2 2) E.a) P.x)) (k2 1)
  let den := fp2Mul (fp2Mul (k2 2) E.b) P.y
  fp2Div num den

/-- The third point of the line of slope `lam` through `(x1, y1)` and a point with x-coordinate `x2`, negated:
`x3 = b·lam² − a − x1 − x2`, `y3 = lam·(x1 − x3) − y1` (rules R172, R173; assumption 9). -/
def linePoint (E : Curve) (lam : Fp2) (P : Point) (x2 : Fp2) : Point :=
  let x3 := fp2Sub (fp2Sub (fp2Sub (fp2Mul E.b (fp2Sqr lam)) E.a) P.x) x2
  ⟨x3, fp2Sub (fp2Mul lam (fp2Sub P.x x3)) P.y⟩

/-- `xdbl` (rule R172). -/
def xdbl (E : Curve) (P : Point) : Point :=
  if P = inf then inf
  else if P.y = fp2Neg P.y then inf
  else linePoint E (tangentSlope E P) P P.x

/-- `xadd`: the four special cases in the spec's order, then the chord (rule R173). -/
def xadd (E : Curve) (P Q : Point) : Point :=
  if P = inf then Q
  else if Q = inf then P
  else if P.x = Q.x ∧ P.y = Q.y then xdbl E P
  else if P.x = Q.x ∧ P.y = fp2Neg Q.y then inf
  else linePoint E (fp2Div (fp2Sub Q.y P.y) (fp2Sub Q.x P.x)) P Q.x

/-- `xtpl` (rule R174). -/
def xtpl (E : Curve) (P : Point) : Point := xadd E P (xdbl E P)

/-- `xdble`: `n` doublings (rule R175). -/
def xdble (E : Curve) (P : Point) : Nat → Point
  | 0 => P
  | n + 1 => xdble E (xdbl E P) n

/-- `xtple`: `n` triplings (rule R176). -/
def xtple (E : Curve) (P : Point) : Nat → Point
  | 0 => P
  | n + 1 => xtple E (xtpl E P) n

/-- The loop of `ladder` with `n` bits left to scan, bit `n − 1` next, and the running point `R` (rule R177). -/
def ladderLoop (E : Curve) (P : Point) (k : Nat) : Nat → Point → Point
  | 0, R => R
  | n + 1, R =>
    ladderLoop E P k n (if k.testBit n then xadd E (xdbl E R) P else xdbl E R)

/-- `ladder`: `k·P` over the low `msb` bits of `k` (rule R177). -/
def ladder (E : Curve) (P : Point) (k msb : Nat) : Point := ladderLoop E P k msb inf

/-- `jinv` (rule R178). -/
def jinv (E : Curve) : Fp2 :=
  let a2 := fp2Sqr E.a
  let t := fp2Sub a2 (k2 3)
  let t3 := fp2Mul (fp2Sqr t) t
  fp2Div (fp2Mul (k2 256) t3) (fp2Sub a2 (k2 4))

/-! ### Commands -/

/-- PT_ISINF wd, qa (rule R171). -/
def execPtIsinf (wd : WReg) (qa : QReg) (s : State) : Outcome :=
  command (.ptIsinf wd qa) s (s.writePredicate wd.toNat (s.readPoint qa.toNat == inf))

/-- XDBL qd, qc, qa (rule R172). -/
def execXdbl (qd qc qa : QReg) (s : State) : Outcome :=
  command (.xdbl qd qc qa) s (s.writePoint qd.toNat (xdbl (s.readCurve qc.toNat) (s.readPoint qa.toNat)))

/-- XADD qd, qc, qa, qb (rule R173). -/
def execXadd (qd qc qa : QReg) (qb : QcReg) (s : State) : Outcome :=
  command (.xadd qd qc qa qb) s
    (s.writePoint qd.toNat (xadd (s.readCurve qc.toNat) (s.readPoint qa.toNat) (s.readPoint qb.toNat)))

/-- XTPL qd, qc, qa (rule R174). -/
def execXtpl (qd qc qa : QReg) (s : State) : Outcome :=
  command (.xtpl qd qc qa) s (s.writePoint qd.toNat (xtpl (s.readCurve qc.toNat) (s.readPoint qa.toNat)))

/-- XDBLE qd, qc, qa, n (rule R175). -/
def execXdble (qd qc qa : QReg) (n : BitVec 8) (s : State) : Outcome :=
  command (.xdble qd qc qa n) s
    (s.writePoint qd.toNat (xdble (s.readCurve qc.toNat) (s.readPoint qa.toNat) n.toNat))

/-- XTPLE qd, qc, qa, n (rule R176). -/
def execXtple (qd qc qa : QReg) (n : BitVec 8) (s : State) : Outcome :=
  command (.xtple qd qc qa n) s
    (s.writePoint qd.toNat (xtple (s.readCurve qc.toNat) (s.readPoint qa.toNat) n.toNat))

/-- LADDER qd, qc, qa, ws, msb: the scalar is the raw word, not range-checked (rule R177). -/
def execLadder (qd qc qa : QReg) (ws : BitVec 3) (msb : BitVec 5) (s : State) : Outcome :=
  command (.ladder qd qc qa ws msb) s
    (s.writePoint qd.toNat
      (ladder (s.readCurve qc.toNat) (s.readPoint qa.toNat) (s.wWord ws.toNat).toNat msb.toNat))

/-- JINV zd, qc (rule R178). -/
def execJinv (zd : ZReg) (qc : QReg) (s : State) : Outcome :=
  command (.jinv zd qc) s (s.writeZ zd.toNat (jinv (s.readCurve qc.toNat)))

end Sys2Proof.Machine
end

