-- ==== Sys2Proof/Machine/Isogeny.lean ====
section
/-! DEFINITION. The isogeny evaluator of degree 2, 3 and 4 and the walk sequencer (rules R200 to R210), then the meanings
of CURVE2ISO to ISO3E. Of a kernel point only the x-coordinate is read. -/

namespace Sys2Proof.Machine

/-! ### Degree 2 -/

/-- `curve2iso` (rule R201). -/
def curve2iso (K : Point) (E : Curve) : Curve :=
  let x2 := K.x
  ⟨fp2Mul (k2 2) (fp2Sub (k2 1) (fp2Mul (k2 2) (fp2Sqr x2))), fp2Mul x2 E.b⟩

/-- The point map of `eval2iso` past its guard, with `d = x − x2` (rule R202). -/
def eval2isoMap (x2 d : Fp2) (P : Point) : Point :=
  let x := P.x
  let xx := fp2Div (fp2Sub (fp2Mul (fp2Sqr x) x2) x) d
  let n := fp2Add (fp2Sub (fp2Mul (fp2Sqr x) x2) (fp2Mul (fp2Mul (k2 2) x) (fp2Sqr x2))) x2
  ⟨xx, fp2Mul P.y (fp2Div n (fp2Sqr d))⟩

/-- `eval2iso`, with the guard of rule R200 (rule R202). -/
def eval2iso (K P : Point) : Point :=
  let d := fp2Sub P.x K.x
  if P = inf then inf
  else if d = fp2Zero then inf
  else eval2isoMap K.x d P

/-! ### Degree 3 -/

/-- `curve3iso` (rule R203). -/
def curve3iso (K : Point) (E : Curve) : Curve :=
  let x3 := K.x
  ⟨fp2Mul (fp2Add (fp2Sub (fp2Mul E.a x3) (fp2Mul (k2 6) (fp2Sqr x3))) (k2 6)) x3,
   fp2Mul E.b (fp2Sqr x3)⟩

/-- The point map of `eval3iso` past its guard, with `d = x − x3` (rule R204; assumption 9). -/
def eval3isoMap (x3 d : Fp2) (P : Point) : Point :=
  let x := P.x
  let t := fp2Sub (fp2Mul x x3) (k2 1)
  let xx := fp2Div (fp2Mul x (fp2Sqr t)) (fp2Sqr d)
  let n := fp2Add (fp2Add (fp2Sub (fp2Mul (fp2Sqr x) x3) (fp2Mul (fp2Mul (k2 3) x) (fp2Sqr x3))) x) x3
  ⟨xx, fp2Mul P.y (fp2Div (fp2Mul t n) (fp2Mul (fp2Sqr d) d))⟩

/-- `eval3iso`, with the guard of rule R200 (rule R204). -/
def eval3iso (K P : Point) : Point :=
  let d := fp2Sub P.x K.x
  if P = inf then inf
  else if d = fp2Zero then inf
  else eval3isoMap K.x d P

/-! ### Degree 4 -/

/-- `curve4iso` (rule R205). -/
def curve4iso (K : Point) (E : Curve) : Curve :=
  let x4 := K.x
  let s := fp2Sqr x4
  ⟨fp2Sub (fp2Mul (k2 4) (fp2Sqr s)) (k2 2),
   fp2Neg (fp2Half (fp2Mul (fp2Mul x4 (fp2Add s (k2 1))) E.b))⟩

/-- The factor `u = 2·x·x4 − x4² − 1` of the x-denominator of `eval4iso`, zero at twice the kernel point (rule R206). -/
def eval4isoU (x4 x : Fp2) : Fp2 :=
  fp2Sub (fp2Sub (fp2Mul (k2 2) (fp2Mul x x4)) (fp2Sqr x4)) (k2 1)

/-- The polynomial `g = x⁴·s − 4·x³·w + 2·x²·(x4⁴ + 5·x4²) − 4·x·w + x4² + 1` with `s = x4² + 1`, `w = x4³ + x4`
(rule R206). -/
def eval4isoG (x4 x : Fp2) : Fp2 :=
  let xSq := fp2Sqr x
  let kSq := fp2Sqr x4
  let s := fp2Add kSq (k2 1)
  let w := fp2Add (fp2Mul kSq x4) x4
  let quartic := fp2Mul (fp2Sqr xSq) s
  let cubic := fp2Mul (fp2Mul (k2 4) (fp2Mul xSq x)) w
  let quadratic := fp2Mul (fp2Mul (k2 2) xSq) (fp2Add (fp2Sqr kSq) (fp2Mul (k2 5) kSq))
  let linear := fp2Mul (fp2Mul (k2 4) x) w
  fp2Add (fp2Add (fp2Sub (fp2Add (fp2Sub quartic cubic) quadratic) linear) kSq) (k2 1)

/-- The point map of `eval4iso` past its guard, with `d = x − x4` and `u` as above (rule R206; assumption 9). -/
def eval4isoMap (x4 d u : Fp2) (P : Point) : Point :=
  let x := P.x
  let kSq := fp2Sqr x4
  let t := fp2Sub (fp2Mul x x4) (k2 1)
  let inner := fp2Sub (fp2Add (fp2Mul x kSq) x) (fp2Mul (k2 2) x4)
  let xx := fp2Div (fp2Neg (fp2Mul (fp2Mul x inner) (fp2Sqr t))) (fp2Mul (fp2Sqr d) u)
  let num := fp2Mul (fp2Mul (fp2Mul (k2 (Config.p - 2)) kSq) t) (eval4isoG x4 x)
  let den := fp2Mul (fp2Mul (fp2Sqr d) d) (fp2Sqr u)
  ⟨xx, fp2Mul P.y (fp2Div num den)⟩

/-- `eval4iso`, with the guard of rule R200 (rule R206). -/
def eval4iso (K P : Point) : Point :=
  let d := fp2Sub P.x K.x
  let u := eval4isoU K.x P.x
  if P = inf then inf
  else if d = fp2Zero ∨ u = fp2Zero then inf
  else eval4isoMap K.x d u P

/-! ### The walks -/

/-- What a walk carries: the curve, the kernel generator's image, and the auxiliary points that are present
(rules R207 to R209). -/
structure Walk where
  E : Curve
  S : Point
  A1 : Option Point
  A2 : Option Point
  deriving DecidableEq, Repr

/-- One step of a walk at the kernel point `T`, with the degree's curve map and point map: `T` comes from the curve and
the generator as they stand before the step (rule R207). -/
def walkStep (curveMap : Point → Curve → Curve) (pointMap : Point → Point → Point) (T : Point) (v : Walk) : Walk :=
  { E := curveMap T v.E, S := pointMap T v.S, A1 := v.A1.map (pointMap T), A2 := v.A2.map (pointMap T) }

/-- The `n` degree-4 steps of an even walk of length `2n`, descending by `2n − 2, …, 2, 0` doublings (rule R207). -/
def walk4 : Nat → Walk → Walk
  | 0, v => v
  | n + 1, v => walk4 n (walkStep curve4iso eval4iso (xdble v.E v.S (2 * n)) v)

/-- `iso_2_e`: one degree-2 step if `e` is odd, then the degree-4 steps (rule R207). -/
def iso2e (e : Nat) (v : Walk) : Walk :=
  if e % 2 = 1 then walk4 (e / 2) (walkStep curve2iso eval2iso (xdble v.E v.S (e - 1)) v)
  else walk4 (e / 2) v

/-- `iso_3_e`: `e` degree-3 steps, descending by `e − 1, …, 1, 0` triplings (rule R208). -/
def iso3e : Nat → Walk → Walk
  | 0, v => v
  | n + 1, v => iso3e n (walkStep curve3iso eval3iso (xtple v.E v.S n) v)

/-- The operands of a walk command: the auxiliary points whose bits are set are read, the others are not (rule R209). -/
def State.readWalk (s : State) (qc qs qa : QReg) (a2 a1 : Bool) : Walk where
  E := s.readCurve qc.toNat
  S := s.readPoint qs.toNat
  A1 := if a1 then some (s.readPoint qa.toNat) else none
  A2 := if a2 then some (s.readPoint (qa.toNat + 4)) else none

/-- The results of a walk command, written in place (rule R209). -/
def State.writeWalk (s : State) (qc qs qa : QReg) (v : Walk) : State :=
  (((s.writeCurve qc.toNat v.E).writePoint qs.toNat v.S).writePointIf qa.toNat v.A1).writePointIf (qa.toNat + 4) v.A2

/-! ### Commands -/

/-- CURVE2ISO qd, qk, qc (rule R201). -/
def execCurve2iso (qd qk qc : QReg) (s : State) : Outcome :=
  command (.curve2iso qd qk qc) s
    (s.writeCurve qd.toNat (curve2iso (s.readPoint qk.toNat) (s.readCurve qc.toNat)))

/-- EVAL2ISO qd, qk, qa (rule R202). -/
def execEval2iso (qd qk qa : QReg) (s : State) : Outcome :=
  command (.eval2iso qd qk qa) s
    (s.writePoint qd.toNat (eval2iso (s.readPoint qk.toNat) (s.readPoint qa.toNat)))

/-- CURVE3ISO qd, qk, qc (rule R203). -/
def execCurve3iso (qd qk qc : QReg) (s : State) : Outcome :=
  command (.curve3iso qd qk qc) s
    (s.writeCurve qd.toNat (curve3iso (s.readPoint qk.toNat) (s.readCurve qc.toNat)))

/-- EVAL3ISO qd, qk, qa (rule R204). -/
def execEval3iso (qd qk qa : QReg) (s : State) : Outcome :=
  command (.eval3iso qd qk qa) s
    (s.writePoint qd.toNat (eval3iso (s.readPoint qk.toNat) (s.readPoint qa.toNat)))

/-- CURVE4ISO qd, qk, qc (rule R205). -/
def execCurve4iso (qd qk qc : QReg) (s : State) : Outcome :=
  command (.curve4iso qd qk qc) s
    (s.writeCurve qd.toNat (curve4iso (s.readPoint qk.toNat) (s.readCurve qc.toNat)))

/-- EVAL4ISO qd, qk, qa (rule R206). -/
def execEval4iso (qd qk qa : QReg) (s : State) : Outcome :=
  command (.eval4iso qd qk qa) s
    (s.writePoint qd.toNat (eval4iso (s.readPoint qk.toNat) (s.readPoint qa.toNat)))

/-- ISO2E qc, qs, qa, e, m (rules R207, R209). -/
def execIso2e (qc qs qa : QReg) (a2 a1 : Bool) (e : BitVec 6) (s : State) : Outcome :=
  command (.iso2e qc qs qa a2 a1 e) s
    (s.writeWalk qc qs qa (iso2e e.toNat (s.readWalk qc qs qa a2 a1)))

/-- ISO3E qc, qs, qa, e, m (rules R208, R209). -/
def execIso3e (qc qs qa : QReg) (a2 a1 : Bool) (e : BitVec 6) (s : State) : Outcome :=
  command (.iso3e qc qs qa a2 a1 e) s
    (s.writeWalk qc qs qa (iso3e e.toNat (s.readWalk qc qs qa a2 a1)))

end Sys2Proof.Machine
end

