-- ==== Sys2Proof/Machine/Protocol.lean ====
section
/-! DEFINITION. The protocol operations (rules R230 to R239), then the meanings of GETXR to ISOEX3. -/

namespace Sys2Proof.Machine

/-! ### Steps of the protocol -/

/-- `kernel(E, P, Q, k, msb) = P + k·Q` (rule R239). -/
def kernel (E : Curve) (P Q : Point) (k msb : Nat) : Point := xadd E P (ladder E Q k msb)

/-- `get_xr`: the x-coordinates of `P`, `Q` and `P − Q` (rule R231). -/
def getXr (E : Curve) (P Q : Point) : PublicKey := ⟨P.x, Q.x, (xadd E P (ptNeg Q)).x⟩

/-- `rhs(a, x) = x³ + a·x² + x` (rule R232). -/
def curveRhs (a x : Fp2) : Fp2 :=
  fp2Add (fp2Add (fp2Mul (fp2Sqr x) x) (fp2Mul a (fp2Sqr x))) x

/-- The curve coefficient `a` determined by the three x-coordinates of a public key (rule R232; assumption 9). -/
def recoverA (k : PublicKey) : Fp2 :=
  let t := fp2Sub (fp2Sub (fp2Sub (k2 1) (fp2Mul k.xP k.xQ)) (fp2Mul k.xP k.xR)) (fp2Mul k.xQ k.xR)
  let dn := fp2Mul (fp2Mul (k2 4) (fp2Mul k.xP k.xQ)) k.xR
  fp2Sub (fp2Sub (fp2Sub (fp2Div (fp2Sqr t) dn) k.xP) k.xQ) k.xR

/-- What `recover` returns (rule R232). -/
structure Recovered where
  E : Curve
  P : Point
  Q : Point
  deriving DecidableEq, Repr

/-- `recover`: the curve with `b = 1`, and the two points, the sign of `Q` settled by `xR` (rule R232). -/
def recover (k : PublicKey) : Recovered :=
  let E : Curve := ⟨recoverA k, ⟨1, 0⟩⟩
  let P : Point := ⟨k.xP, fp2Sqrt (curveRhs E.a k.xP)⟩
  let Q : Point := ⟨k.xQ, fp2Sqrt (curveRhs E.a k.xQ)⟩
  if (xadd E P (ptNeg Q)).x = k.xR then ⟨E, P, Q⟩ else ⟨E, P, ptNeg Q⟩

/-- The bound on the 2-side scalar, `2^15` (rule R236). -/
def scalarBound2 : Nat := 2 ^ Config.msbA

/-- The bound on the 3-side scalar, `2^12` (rule R236; conflict C2). -/
def scalarBound3 : Nat := 2 ^ Config.msbB

/-- A walk that carries no auxiliary point (rules R235, R237). -/
def bareWalk (E : Curve) (S : Point) : Walk := ⟨E, S, none, none⟩

/-- The public key of a finished walk: `get_xr` of the images of its two auxiliary points (rules R233, R234). -/
def walkKey (v : Walk) : PublicKey := getXr v.E (v.A1.getD inf) (v.A2.getD inf)

/-- `isogen_2` (rule R233). -/
def isogen2 (E0 : Curve) (P2 Q2 P3 Q3 : Point) (sk : Nat) : PublicKey :=
  walkKey (iso2e Config.e2 ⟨E0, kernel E0 P2 Q2 sk Config.msbA, some P3, some Q3⟩)

/-- `isogen_3` (rule R234). -/
def isogen3 (E0 : Curve) (P2 Q2 P3 Q3 : Point) (sk : Nat) : PublicKey :=
  walkKey (iso3e Config.e3 ⟨E0, kernel E0 P3 Q3 sk Config.msbB, some P2, some Q2⟩)

/-- `isoex_2` (rule R235). -/
def isoex2 (pk : PublicKey) (sk : Nat) : Fp2 :=
  let r := recover pk
  jinv (iso2e Config.e2 (bareWalk r.E (kernel r.E r.P r.Q sk Config.msbA))).E

/-- `isoex_3` (rule R237). -/
def isoex3 (pk : PublicKey) (sk : Nat) : Fp2 :=
  let r := recover pk
  jinv (iso3e Config.e3 (bareWalk r.E (kernel r.E r.P r.Q sk Config.msbB))).E

/-! ### Commands -/

/-- GETXR zd, qc, qa, qb (rule R231). -/
def execGetxr (zd : PkReg) (qc qa : QReg) (qb : QcReg) (s : State) : Outcome :=
  command (.getxr zd qc qa qb) s
    (s.writePk zd.toNat (getXr (s.readCurve qc.toNat) (s.readPoint qa.toNat) (s.readPoint qb.toNat)))

/-- RECOVER qd, za (rule R232). -/
def execRecover (qd : T3Reg) (za : PkReg) (s : State) : Outcome :=
  let r := recover (s.readPk za.toNat)
  command (.recover qd za) s (s.writeT3 qd.toNat r.E r.P r.Q)

/-- ISOGEN2 zd, ws (rules R233, R236). -/
def execIsogen2 (zd : PkReg) (ws : WReg) (s : State) : Outcome :=
  let k := (s.wWord ws.toNat).toNat
  protocolCommand (.isogen2 zd ws) k scalarBound2 s
    (s.writePk zd.toNat (isogen2 s.startCurve s.baseP2 s.baseQ2 s.baseP3 s.baseQ3 k))

/-- ISOGEN3 zd, ws (rules R234, R236). -/
def execIsogen3 (zd : PkReg) (ws : WReg) (s : State) : Outcome :=
  let k := (s.wWord ws.toNat).toNat
  protocolCommand (.isogen3 zd ws) k scalarBound3 s
    (s.writePk zd.toNat (isogen3 s.startCurve s.baseP2 s.baseQ2 s.baseP3 s.baseQ3 k))

/-- ISOEX2 zd, za, ws (rules R235, R236). -/
def execIsoex2 (zd : ZReg) (za : PkReg) (ws : WReg) (s : State) : Outcome :=
  let k := (s.wWord ws.toNat).toNat
  protocolCommand (.isoex2 zd za ws) k scalarBound2 s (s.writeZ zd.toNat (isoex2 (s.readPk za.toNat) k))

/-- ISOEX3 zd, za, ws (rules R237, R236). -/
def execIsoex3 (zd : ZReg) (za : PkReg) (ws : WReg) (s : State) : Outcome :=
  let k := (s.wWord ws.toNat).toNat
  protocolCommand (.isoex3 zd za ws) k scalarBound3 s (s.writeZ zd.toNat (isoex3 (s.readPk za.toNat) k))

end Sys2Proof.Machine
end

