-- ==== Sys2Proof/Machine/Dispatch.lean ====
section
/-! DEFINITION. Which meaning each command of rule R84 has. -/

namespace Sys2Proof.Machine

def exec (i : Instr) (s : State) : Host.Outcome State Fault Refusal :=
  match i with
  | .prmConst slot ws => Sys2Proof.Machine.execPrmConst slot ws s
  | .plock => Sys2Proof.Machine.execPlock s
  | .fpConst fd ws => Sys2Proof.Machine.execFpConst fd ws s
  | .fpAdd fd fa fb => Sys2Proof.Machine.execFpAdd fd fa fb s
  | .fpSub fd fa fb => Sys2Proof.Machine.execFpSub fd fa fb s
  | .fpMul fd fa fb => Sys2Proof.Machine.execFpMul fd fa fb s
  | .fpNeg fd fa => Sys2Proof.Machine.execFpNeg fd fa s
  | .fpSqr fd fa => Sys2Proof.Machine.execFpSqr fd fa s
  | .fpInv fd fa => Sys2Proof.Machine.execFpInv fd fa s
  | .fpPow fd fa ws => Sys2Proof.Machine.execFpPow fd fa ws s
  | .fpSqrt fd fa => Sys2Proof.Machine.execFpSqrt fd fa s
  | .fpEq wd fa fb => Sys2Proof.Machine.execFpEq wd fa fb s
  | .fpIseven wd fa => Sys2Proof.Machine.execFpIseven wd fa s
  | .fpBit wd fa bit => Sys2Proof.Machine.execFpBit wd fa bit s
  | .fpIsqr wd fa => Sys2Proof.Machine.execFpIsqr wd fa s
  | .fp2Const zd ws => Sys2Proof.Machine.execFp2Const zd ws s
  | .fp2Constp zd ws wt => Sys2Proof.Machine.execFp2Constp zd ws wt s
  | .fp2Add zd za zb => Sys2Proof.Machine.execFp2Add zd za zb s
  | .fp2Sub zd za zb => Sys2Proof.Machine.execFp2Sub zd za zb s
  | .fp2Mul zd za zb => Sys2Proof.Machine.execFp2Mul zd za zb s
  | .fp2Sqr zd za => Sys2Proof.Machine.execFp2Sqr zd za s
  | .fp2Inv zd za => Sys2Proof.Machine.execFp2Inv zd za s
  | .fp2Neg zd za => Sys2Proof.Machine.execFp2Neg zd za s
  | .fp2Eq wd za zb => Sys2Proof.Machine.execFp2Eq wd za zb s
  | .fp2Sqrt zd za => Sys2Proof.Machine.execFp2Sqrt zd za s
  | .ptIsinf wd qa => Sys2Proof.Machine.execPtIsinf wd qa s
  | .xdbl qd qc qa => Sys2Proof.Machine.execXdbl qd qc qa s
  | .xadd qd qc qa qb => Sys2Proof.Machine.execXadd qd qc qa qb s
  | .xtpl qd qc qa => Sys2Proof.Machine.execXtpl qd qc qa s
  | .xdble qd qc qa n => Sys2Proof.Machine.execXdble qd qc qa n s
  | .xtple qd qc qa n => Sys2Proof.Machine.execXtple qd qc qa n s
  | .ladder qd qc qa ws msb => Sys2Proof.Machine.execLadder qd qc qa ws msb s
  | .jinv zd qc => Sys2Proof.Machine.execJinv zd qc s
  | .curve2iso qd qk qc => Sys2Proof.Machine.execCurve2iso qd qk qc s
  | .eval2iso qd qk qa => Sys2Proof.Machine.execEval2iso qd qk qa s
  | .curve3iso qd qk qc => Sys2Proof.Machine.execCurve3iso qd qk qc s
  | .eval3iso qd qk qa => Sys2Proof.Machine.execEval3iso qd qk qa s
  | .curve4iso qd qk qc => Sys2Proof.Machine.execCurve4iso qd qk qc s
  | .eval4iso qd qk qa => Sys2Proof.Machine.execEval4iso qd qk qa s
  | .iso2e qc qs qa a2 a1 e => Sys2Proof.Machine.execIso2e qc qs qa a2 a1 e s
  | .iso3e qc qs qa a2 a1 e => Sys2Proof.Machine.execIso3e qc qs qa a2 a1 e s
  | .getxr zd qc qa qb => Sys2Proof.Machine.execGetxr zd qc qa qb s
  | .recover qd za => Sys2Proof.Machine.execRecover qd za s
  | .isogen2 zd ws => Sys2Proof.Machine.execIsogen2 zd ws s
  | .isogen3 zd ws => Sys2Proof.Machine.execIsogen3 zd ws s
  | .isoex2 zd za ws => Sys2Proof.Machine.execIsoex2 zd za ws s
  | .isoex3 zd za ws => Sys2Proof.Machine.execIsoex3 zd za ws s

end Sys2Proof.Machine
end

