-- ==== Sys2Proof/Machine/HostPort.lean ====
section
/-! DEFINITION. The host port: the port map as reads and writes (rules R51 to R60), what a write to CMD does (rule R260),
and the setup sequence of rule R251 as host events. -/

namespace Sys2Proof.Machine

/-- MODULUS (rule R35). -/
def modulusWord : Word := BitVec.ofNat 32 Config.p

/-- CONFIG: E2 in bits 7:0, E3 in 15:8, MSBA in 23:16, MSBB in 31:24 (rule R35). -/
def configWord : Word :=
  BitVec.ofNat 8 Config.msbB ++ BitVec.ofNat 8 Config.msbA ++ BitVec.ofNat 8 Config.e3 ++ BitVec.ofNat 8 Config.e2

/-- The word `PortRead(pa)` returns (rules R52, R54, R55): CMD, CTRL and every unmapped address read 0. -/
def portValue (s : State) (pa : Nat) : Word :=
  if pa = 0x01 then s.statusWord
  else if pa = 0x02 then s.errcmd
  else if pa = 0x03 then modulusWord
  else if pa = 0x04 then configWord
  else if 0x10 ≤ pa ∧ pa ≤ 0x17 then s.wWord (pa - 0x10)
  else if 0x40 ≤ pa ∧ pa ≤ 0x7f then s.fWord (pa - 0x40)
  else if 0x80 ≤ pa ∧ pa ≤ 0x93 then s.prmWord (pa - 0x80)
  else 0

/-- `PortRead(pa)`: the value goes to the host and nothing in the core changes (rule R54). -/
def portRead (pa : BitVec 8) (s : State) : Outcome :=
  .next { s with replies := portValue s pa.toNat :: s.replies }

/-- What a write of `c` to CMD does (rule R260): ignored while STATUS.FAULT = 1, Fault(1) if `c` selects no command, else
the command, which makes its own further checks. -/
def commandWrite (c : Word) (s : State) : Outcome :=
  if s.fault then .next s
  else
    match decode c with
    | .error _ => raiseFault .illegalCommand c s
    | .ok i => exec i s

/-- A write of `v` to CTRL: bit 0 = 1 resets the core, the other bits are ignored (rule R36). -/
def ctrlWrite (v : Word) (s : State) : State := if v.getLsbD 0 then s.resetCore else s

/-- `PortWrite(pa, v)` (rules R52, R53, R55): a write to a read-only or unmapped address has no effect. -/
def portWrite (pa : BitVec 8) (v : Word) (s : State) : Outcome :=
  if pa.toNat = 0x00 then commandWrite v s
  else if pa.toNat = 0x05 then .next (ctrlWrite v s)
  else if 0x10 ≤ pa.toNat ∧ pa.toNat ≤ 0x17 then .next (s.writeW (pa.toNat - 0x10) v)
  else .next s

/-- One host event, carried out whole before the next begins (rule R57). -/
def hostEvent (e : HostEvent) (s : State) : Outcome :=
  match e with
  | .portRead pa => portRead pa s
  | .portWrite pa v => portWrite pa v s
  | .powerOn => .next s.resetCore

/-- The state in which the host has taken the next event off its list to carry it out (rule R30). -/
def State.taken (s : State) (rest : List HostEvent) : State :=
  { s with pending := rest, txnIndex := s.txnIndex + 1 }

/-- One step: the next event of the host's list, or nothing when the host is idle (rules R57, R62, R277; DESIGN CHOICE,
assumption 2). -/
def hostStep (s : State) : Outcome :=
  match s.pending with
  | [] => .next s
  | e :: rest => hostEvent e (s.taken rest)

/-- A command word as the host issues it (rule R80). -/
def issue (c : Word) : HostEvent := .portWrite 0x00 c

/-- `HW wN, v` (rule R90). -/
def hostWriteW (n : Nat) (v : Word) : HostEvent := .portWrite (BitVec.ofNat 8 (0x10 + n)) v

/-- The setup sequence of rule R251 for the open parameter `StaticParams`: each constant through w0 into its slot, then
PLOCK. The 20 constants are an argument, since the source does not print them (assumption 5). -/
def setupSequence (staticParams : Vector Word 20) : List HostEvent :=
  (staticParams.toList.zipIdx.flatMap fun entry =>
    [hostWriteW 0 entry.1, issue (encode (.prmConst (BitVec.ofNat 6 entry.2) 0))]) ++ [issue (encode .plock)]

/-- The host about to issue the command whose word is the low `nbits` bits of `w`, before anything it still has to do
(DESIGN CHOICE, assumption 3). -/
def placeCommand (s : State) (nbits w : Nat) : State :=
  { s with pending := issue (BitVec.ofNat 32 (w % 2 ^ nbits)) :: s.pending }

end Sys2Proof.Machine
end

