-- ==== Sys2Proof/Machine/Step.lean ====
section
/-! DEFINITION. One step of the machine: one event of the host's list. -/

namespace Sys2Proof.Machine

/-- One step (`hostStep`): the core runs only what the host port brings it (rule R57). -/
def step (s : State) : Host.Outcome State Fault Refusal := hostStep s

/-- `s` with the command word `w` as the next thing the host writes to CMD. -/
def State.withFetchWord (s : State) (nbits w : Nat) : State := placeCommand s nbits w

end Sys2Proof.Machine
end

