-- ==== Sys2Proof/Safety.lean ====
section
/-! DEFINITION. The terms claims are made in: the invariant of a sound state, what one step leaves unchanged (frames), and
the field the numbers of the core stand for. -/

namespace Sys2Proof.Machine

/-! ### Reduced values (rules R20, R21, R27, R31) -/

/-- A pair of canonical representatives. -/
def Reduced2 (z : Fp2) : Prop := z.x0 < Config.p ∧ z.x1 < Config.p

/-- A point (or sentinel) of canonical representatives. -/
def ReducedPoint (P : Point) : Prop := Reduced2 P.x ∧ Reduced2 P.y

/-- A curve of canonical representatives. -/
def ReducedCurve (E : Curve) : Prop := Reduced2 E.a ∧ Reduced2 E.b

/-- Every word of `f` and of `prm` is below `p` (rules R27, R31). -/
def State.Reduced (s : State) : Prop :=
  (∀ j, j < 64 → (s.fWord j).toNat < Config.p) ∧ (∀ j, j < 20 → (s.prmWord j).toNat < Config.p)

/-! ### The fault registers (rules R32, R33, R260, R261) -/

/-- PRM_CONST and PLOCK, the commands of the setup phase (rule R253). -/
def isSetup : Instr → Bool
  | .prmConst _ _ => true
  | .plock => true
  | _ => false

/-- ISOGEN2, ISOGEN3, ISOEX2 and ISOEX3, the commands that need the lock (rule R253). -/
def isProtocol : Instr → Bool
  | .isogen2 _ _ => true
  | .isogen3 _ _ => true
  | .isoex2 _ _ _ => true
  | .isoex3 _ _ _ => true
  | _ => false

/-- The scalar register of a protocol command and the bound its value must stay below (rules R236, R267). -/
def scalarDemand : Instr → Option (WReg × Nat)
  | .isogen2 _ ws => some (ws, 32768)
  | .isogen3 _ ws => some (ws, 4096)
  | .isoex2 _ _ ws => some (ws, 32768)
  | .isoex3 _ _ ws => some (ws, 4096)
  | _ => none

/-- ERRCMD holds a command word that raises the fault whose code ERRCODE holds, under the present lock. -/
def State.FaultExplained (s : State) : Prop :=
  (s.errcode = 1 ∧ ∀ i, decode s.errcmd ≠ .ok i) ∨
  (s.errcode = 2 ∧ ∃ i, decode s.errcmd = .ok i ∧ ¬ i.WellFormed) ∨
  (s.errcode = 3 ∧ s.locked = true ∧ ∃ i, decode s.errcmd = .ok i ∧ i.WellFormed ∧ isSetup i = true) ∨
  (s.errcode = 4 ∧ s.locked = false ∧ ∃ i, decode s.errcmd = .ok i ∧ i.WellFormed ∧ isProtocol i = true) ∨
  (s.errcode = 5 ∧ s.locked = true ∧ ∃ i, decode s.errcmd = .ok i ∧ i.WellFormed ∧ isProtocol i = true)

/-- ERRCODE and ERRCMD are 0 while FAULT is 0, and explain the fault while it is 1. -/
def State.FaultRecorded (s : State) : Prop :=
  (s.fault = false → s.errcode = 0 ∧ s.errcmd = 0) ∧ (s.fault = true → s.FaultExplained)

/-- The invariant of a sound state. -/
def State.Inv (s : State) : Prop := s.Reduced ∧ s.FaultRecorded

/-! ### Frames: what is left unchanged -/

/-- `n` words of `f` from word index `r`. -/
def Words (r n : Nat) (j : Nat) : Prop := r ≤ j ∧ j < r + n

/-- The host's list, its index and what it has read are the same in both states. -/
def SameHost (s t : State) : Prop :=
  t.pending = s.pending ∧ t.txnIndex = s.txnIndex ∧ t.replies = s.replies

/-- STATUS and ERRCMD are the same in both states. -/
def SameStatus (s t : State) : Prop :=
  t.locked = s.locked ∧ t.fault = s.fault ∧ t.errcode = s.errcode ∧ t.errcmd = s.errcmd

/-- Every register of the core is the same in both states. -/
def SameCore (s t : State) : Prop := t.f = s.f ∧ t.w = s.w ∧ t.prm = s.prm ∧ SameStatus s t

/-- Every register of the core has its reset value (rules R38, R290). -/
def State.CoreIsReset (s : State) : Prop :=
  (∀ j, j < 64 → s.fWord j = 0) ∧ (∀ j, j < 8 → s.wWord j = 0) ∧ (∀ j, j < 20 → s.prmWord j = 0) ∧
  s.locked = false ∧ s.fault = false ∧ s.errcode = 0 ∧ s.errcmd = 0

/-- The host events that reset the core (rules R36, R290). -/
def IsResetEvent (e : HostEvent) : Prop :=
  e = .powerOn ∨ ∃ v : Word, e = .portWrite 0x05 v ∧ v.getLsbD 0 = true

/-- `t` is `s` but for the words of `f` at the indices of `dest`. -/
def SameButF (s t : State) (dest : Nat → Prop) : Prop :=
  (∀ j, j < 64 → ¬ dest j → t.fWord j = s.fWord j) ∧ t.w = s.w ∧ t.prm = s.prm ∧ SameStatus s t ∧ SameHost s t

/-- `t` is `s` but for the register `w[r]`. -/
def SameButW (s t : State) (r : Nat) : Prop :=
  (∀ j, j < 8 → j ≠ r → t.wWord j = s.wWord j) ∧ t.f = s.f ∧ t.prm = s.prm ∧ SameStatus s t ∧ SameHost s t

/-- `t` is `s` but for the word `prm[r]`. -/
def SameButPrm (s t : State) (r : Nat) : Prop :=
  (∀ j, j < 20 → j ≠ r → t.prmWord j = s.prmWord j) ∧ t.f = s.f ∧ t.w = s.w ∧ SameStatus s t ∧ SameHost s t

/-- `t` is `s` after Fault(`code`) of the command word `c` (rule R262). -/
def AfterFault (s t : State) (code : BitVec 4) (c : Word) : Prop :=
  t.fault = true ∧ t.errcode = code ∧ t.errcmd = c ∧
  t.f = s.f ∧ t.w = s.w ∧ t.prm = s.prm ∧ t.locked = s.locked ∧ SameHost s t

/-! ### Completion with a result -/

/-- `i` completes in `s`, writes `v` to `f[r]` and nothing else. -/
def YieldsF (i : Instr) (s : State) (r v : Nat) : Prop :=
  ∃ t, exec i s = .next t ∧ (t.fWord r).toNat = v ∧ SameButF s t (Words r 1)

/-- `i` completes in `s`, writes the word `v` to `w[r]` and nothing else. -/
def YieldsW (i : Instr) (s : State) (r : Nat) (v : Word) : Prop :=
  ∃ t, exec i s = .next t ∧ t.wWord r = v ∧ SameButW s t r

/-- `i` completes in `s`, writes `v` to `z[r]` and nothing else. -/
def YieldsZ (i : Instr) (s : State) (r : Nat) (v : Fp2) : Prop :=
  ∃ t, exec i s = .next t ∧ t.readZ r = v ∧ SameButF s t (Words r 2)

/-- `i` completes in `s`, writes the point `P` to `q[r]` and nothing else. -/
def YieldsPoint (i : Instr) (s : State) (r : Nat) (P : Point) : Prop :=
  ∃ t, exec i s = .next t ∧ t.readPoint r = P ∧ SameButF s t (Words r 4)

/-- `i` completes in `s`, writes the curve `E` to `q[r]` and nothing else. -/
def YieldsCurve (i : Instr) (s : State) (r : Nat) (E : Curve) : Prop :=
  ∃ t, exec i s = .next t ∧ t.readCurve r = E ∧ SameButF s t (Words r 4)

/-- `i` completes in `s`, writes the public key `k` to `pk[r]` and nothing else. -/
def YieldsPk (i : Instr) (s : State) (r : Nat) (k : PublicKey) : Prop :=
  ∃ t, exec i s = .next t ∧ t.readPk r = k ∧ SameButF s t (Words r 6)

/-- `i` completes in `s`, writes the curve `E` and the points `P`, `Q` to `t3[r]` and nothing else. -/
def YieldsT3 (i : Instr) (s : State) (r : Nat) (E : Curve) (P Q : Point) : Prop :=
  ∃ t, exec i s = .next t ∧ t.readCurve r = E ∧ t.readPoint (r + 4) = P ∧ t.readPoint (r + 8) = Q ∧
    SameButF s t (Words r 12)

/-- The words of `f` a walk writes (rule R209). -/
def WalkWords (qc qs qa : QReg) (a2 a1 : Bool) (j : Nat) : Prop :=
  Words qc.toNat 4 j ∨ Words qs.toNat 4 j ∨ (a1 = true ∧ Words qa.toNat 4 j) ∨ (a2 = true ∧ Words (qa.toNat + 4) 4 j)

/-- `i` completes in `s` and writes the walk's curve, generator and present auxiliary points in place and nothing else. -/
def YieldsWalk (i : Instr) (s : State) (qc qs qa : QReg) (a2 a1 : Bool) (v : Walk) : Prop :=
  ∃ t, exec i s = .next t ∧ t.readCurve qc.toNat = v.E ∧ t.readPoint qs.toNat = v.S ∧
    v.A1 = (if a1 then some (t.readPoint qa.toNat) else none) ∧
    v.A2 = (if a2 then some (t.readPoint (qa.toNat + 4)) else none) ∧
    SameButF s t (WalkWords qc qs qa a2 a1)

/-- `i` raises Fault(`code`) in `s`, with its own word in ERRCMD, and has no other effect. -/
def RaisesFault (i : Instr) (s : State) (code : BitVec 4) : Prop :=
  ∃ t, exec i s = .next t ∧ AfterFault s t code (encode i)

/-! ### The field the numbers stand for (rules R17, R21, R23) -/

/-- `Fp[i]/(i² + 1)`. -/
abbrev FieldFp2 := QuadraticAlgebra (ZMod Config.p) (-1) 0

/-- The element `x0 + x1·i` a pair stands for. -/
def toField (z : Fp2) : FieldFp2 := ⟨(z.x0 : ZMod Config.p), (z.x1 : ZMod Config.p)⟩

/-- `b·y² = x³ + a·x² + x` (rule R23), for an affine point. -/
def OnCurve (E : Curve) (P : Point) : Prop :=
  toField E.b * toField P.y ^ 2 = toField P.x ^ 3 + toField E.a * toField P.x ^ 2 + toField P.x

/-! ### The formulas of the rules, over the field -/

/-- What `R` must be as the double of `P` on `E` (rule R172). -/
def XdblSpec (E : Curve) (P R : Point) : Prop :=
  (P = inf ∨ P.y = ⟨0, 0⟩ → R = inf) ∧
  (P ≠ inf → P.y ≠ ⟨0, 0⟩ → ReducedPoint R ∧ ∃ lam : FieldFp2,
    (E.b ≠ ⟨0, 0⟩ → lam * (2 * toField E.b * toField P.y) =
      3 * toField P.x ^ 2 + 2 * toField E.a * toField P.x + 1) ∧
    (E.b = ⟨0, 0⟩ → lam = 0) ∧
    toField R.x = toField E.b * lam ^ 2 - toField E.a - 2 * toField P.x ∧
    toField R.y = lam * (toField P.x - toField R.x) - toField P.y)

/-- What `R` must be as the sum of `P` and `Q` on `E`, the cases in the order of rule R173. -/
def XaddSpec (E : Curve) (P Q R : Point) : Prop :=
  (P = inf → R = Q) ∧
  (P ≠ inf → Q = inf → R = P) ∧
  (P ≠ inf → Q ≠ inf →
    (P = Q → XdblSpec E P R) ∧
    (P ≠ Q → P.x = Q.x → toField P.y = - toField Q.y → R = inf) ∧
    (P.x = Q.x → P.y ≠ Q.y → toField P.y ≠ - toField Q.y →
      ReducedPoint R ∧ toField R.x = - toField E.a - 2 * toField P.x ∧ toField R.y = - toField P.y) ∧
    (P.x ≠ Q.x → ReducedPoint R ∧ ∃ lam : FieldFp2,
      lam * (toField Q.x - toField P.x) = toField Q.y - toField P.y ∧
      toField R.x = toField E.b * lam ^ 2 - toField E.a - toField P.x - toField Q.x ∧
      toField R.y = lam * (toField P.x - toField R.x) - toField P.y))

/-- The image `R` of an affine point `P` under the degree-2 map with kernel abscissa `x2 ≠ P.x` (rule R202). -/
def Eval2Spec (x2 : Fp2) (P R : Point) : Prop :=
  ReducedPoint R ∧
  toField R.x * (toField P.x - toField x2) = toField P.x ^ 2 * toField x2 - toField P.x ∧
  toField R.y * (toField P.x - toField x2) ^ 2 =
    toField P.y * (toField P.x ^ 2 * toField x2 - 2 * toField P.x * toField x2 ^ 2 + toField x2)

/-- The image `R` of an affine point `P` under the degree-3 map with kernel abscissa `x3 ≠ P.x` (rule R204). -/
def Eval3Spec (x3 : Fp2) (P R : Point) : Prop :=
  ReducedPoint R ∧
  toField R.x * (toField P.x - toField x3) ^ 2 = toField P.x * (toField P.x * toField x3 - 1) ^ 2 ∧
  toField R.y * (toField P.x - toField x3) ^ 3 =
    toField P.y * (toField P.x * toField x3 - 1) *
      (toField P.x ^ 2 * toField x3 - 3 * toField P.x * toField x3 ^ 2 + toField P.x + toField x3)

/-- `2·x·x4 − x4² − 1`, zero where twice the kernel point is (rule R206). -/
def eval4Denominator (x4 x : Fp2) : FieldFp2 := 2 * toField x * toField x4 - toField x4 ^ 2 - 1

/-- The image `R` of an affine point `P` under the degree-4 map with kernel abscissa `x4`, off its poles (rule R206). -/
def Eval4Spec (x4 : Fp2) (P R : Point) : Prop :=
  ReducedPoint R ∧
  toField R.x * ((toField P.x - toField x4) ^ 2 * eval4Denominator x4 P.x) =
    -(toField P.x * (toField P.x * toField x4 ^ 2 + toField P.x - 2 * toField x4) *
      (toField P.x * toField x4 - 1) ^ 2) ∧
  toField R.y * ((toField P.x - toField x4) ^ 3 * eval4Denominator x4 P.x ^ 2) =
    toField P.y * (-2 * toField x4 ^ 2) * (toField P.x * toField x4 - 1) *
      (toField P.x ^ 4 * (toField x4 ^ 2 + 1) - 4 * toField P.x ^ 3 * (toField x4 ^ 3 + toField x4) +
        2 * toField P.x ^ 2 * (toField x4 ^ 4 + 5 * toField x4 ^ 2) -
        4 * toField P.x * (toField x4 ^ 3 + toField x4) + toField x4 ^ 2 + 1)

/-- What rule R232 makes of the public key `k`: the curve `E` with `b = 1`, and the points `P`, `Q`. -/
def RecoverSpec (k : PublicKey) (E : Curve) (P Q : Point) : Prop :=
  Reduced2 E.a ∧ E.b = ⟨1, 0⟩ ∧
  (toField k.xP * toField k.xQ * toField k.xR ≠ 0 →
    (toField E.a + toField k.xP + toField k.xQ + toField k.xR) *
        (4 * toField k.xP * toField k.xQ * toField k.xR) =
      (1 - toField k.xP * toField k.xQ - toField k.xP * toField k.xR - toField k.xQ * toField k.xR) ^ 2) ∧
  (toField k.xP * toField k.xQ * toField k.xR = 0 →
    toField E.a = -(toField k.xP + toField k.xQ + toField k.xR)) ∧
  ∃ rP rQ : Fp2, Reduced2 rP ∧ Reduced2 rQ ∧
    toField rP = toField k.xP ^ 3 + toField E.a * toField k.xP ^ 2 + toField k.xP ∧
    toField rQ = toField k.xQ ^ 3 + toField E.a * toField k.xQ ^ 2 + toField k.xQ ∧
    P = ⟨k.xP, fp2Sqrt rP⟩ ∧
    ((xadd E P ⟨k.xQ, fp2Neg (fp2Sqrt rQ)⟩).x = k.xR → Q = ⟨k.xQ, fp2Sqrt rQ⟩) ∧
    ((xadd E P ⟨k.xQ, fp2Neg (fp2Sqrt rQ)⟩).x ≠ k.xR → Q = ⟨k.xQ, fp2Neg (fp2Sqrt rQ)⟩)

end Sys2Proof.Machine
end

