-- ==== Sys2Proof/Certificates/Slice0/Obligations.lean ====
section
/-! DEFINITION. The statements for the provers, from the numbered rules of the spec. Operand and destination registers are
arbitrary throughout, so every statement also covers a destination that is, or overlaps, a source (rule R292). -/

open Sys2Proof Sys2Proof.Machine

/-! ### Encoding -/

/-- Rule R91, which the spec marks as derived from rules R81, R84 and R89: the six worked encodings, read and written. -/
def Obligations.WorkedEncodings : Prop :=
  (decode 0x2c200100 = .ok (.fpMul 2 0 1) ∧ encode (.fpMul 2 0 1) = 0x2c200100) ∧
  (decode 0x70400200 = .ok (.fp2Mul 4 0 2) ∧ encode (.fp2Mul 4 0 2) = 0x70400200) ∧
  (decode 0xa8c00408 = .ok (.xadd 12 0 4 8) ∧ encode (.xadd 12 0 4 8) = 0xa8c00408) ∧
  (decode 0xb900082f = .ok (.ladder 16 0 8 1 15) ∧ encode (.ladder 16 0 8 1 15) = 0xb900082f) ∧
  (decode 0xd80108cf = .ok (.iso2e 0 4 8 true true 15) ∧ encode (.iso2e 0 4 8 true true 15) = 0xd80108cf) ∧
  (decode 0x08000000 = .ok .plock ∧ encode .plock = 0x08000000)

/-- Rules R81, R83, R84, R88: every instruction, well-formed or not, is what its word decodes to. -/
def Obligations.DecodeAfterEncode : Prop := ∀ i : Instr, decode (encode i) = .ok i

/-- Rules R81, R84, R88: a word that decodes to an instruction is that instruction's word, so no two words share one. -/
def Obligations.EncodeAfterDecode : Prop := ∀ (c : Word) (i : Instr), decode c = .ok i → encode i = c

/-- Rule R86: a word selects the command of the one row whose mask and match it meets; a word that selects no row raises
Fault(1); a selected command with a field illegal for its class raises Fault(2). -/
def Obligations.RowsSelectCommands : Prop :=
  ∀ c : Word,
    (∀ row ∈ opcodeRows, rowSelects row c = true → ∃ i, decode c = .ok i ∧ mnemonic i = row.1) ∧
    (∀ i, decode c = .ok i → ∃ row ∈ opcodeRows, row.1 = mnemonic i ∧ rowSelects row c = true) ∧
    (∀ row ∈ opcodeRows, ∀ row' ∈ opcodeRows, rowSelects row c = true → rowSelects row' c = true → row = row') ∧
    (∀ s : State, s.fault = false →
      ((∀ row ∈ opcodeRows, rowSelects row c = false) → ∃ t, commandWrite c s = .next t ∧ AfterFault s t 1 c) ∧
      (∀ i, decode c = .ok i → ¬ i.WellFormed → ∃ t, commandWrite c s = .next t ∧ AfterFault s t 2 c))

/-- Rule R85: the 17 reserved values of `op`; a command with one raises Fault(1) and changes nothing else. -/
def Obligations.ReservedOpcodes : Prop :=
  let reserved : List (BitVec 6) :=
    [0x00, 0x03, 0x04, 0x05, 0x06, 0x07, 0x15, 0x16, 0x17, 0x22, 0x23, 0x24, 0x25, 0x26, 0x27, 0x3e, 0x3f]
  reserved.length = 17 ∧
  (∀ op, op ∈ reserved ↔ ∀ i : Instr, (encode i).extractLsb' 26 6 ≠ op) ∧
  ∀ (s : State) (c : Word), s.fault = false →
    (c.extractLsb' 26 6 ∈ reserved ∨ c = 0x00000000 ∨ c = 0xffffffff) →
    ∃ t, commandWrite c s = .next t ∧ AfterFault s t 1 c

/-- Rules R82, R83, R209: which values of a field are legal, class by class, each on a command that has the class, and exactly
when the registers of a walk are legal. -/
def Obligations.OperandClasses : Prop :=
  (∀ (fd fa fb : FReg), (Instr.fpAdd fd fa fb).WellFormed) ∧
  (∀ (zd za : ZReg), (Instr.fp2Neg zd za).WellFormed ↔ 2 ∣ zd.toNat ∧ 2 ∣ za.toNat) ∧
  (∀ (qd qc qa : QReg) (qb : QcReg), (Instr.xadd qd qc qa qb).WellFormed ↔
    4 ∣ qd.toNat ∧ 4 ∣ qc.toNat ∧ 4 ∣ qa.toNat ∧ 4 ∣ qb.toNat ∧ qb.toNat ≤ 60) ∧
  (∀ (qd : T3Reg) (za : PkReg), (Instr.recover qd za).WellFormed ↔
    (4 ∣ qd.toNat ∧ qd.toNat ≤ 52) ∧ (2 ∣ za.toNat ∧ za.toNat ≤ 58)) ∧
  (∀ (slot : Slot) (ws : WReg), (Instr.prmConst slot ws).WellFormed ↔ slot.toNat ≤ 19 ∧ ws.toNat ≤ 7) ∧
  (∀ (qd qc qa : QReg) (n : BitVec 8), (Instr.xdble qd qc qa n).WellFormed ↔
    4 ∣ qd.toNat ∧ 4 ∣ qc.toNat ∧ 4 ∣ qa.toNat) ∧
  (∀ (qd qc qa : QReg) (ws : BitVec 3) (msb : BitVec 5), (Instr.ladder qd qc qa ws msb).WellFormed ↔
    4 ∣ qd.toNat ∧ 4 ∣ qc.toNat ∧ 4 ∣ qa.toNat) ∧
  (∀ (qc qs qa : QReg) (a2 a1 : Bool) (e : BitVec 6),
    let legal : Prop :=
      4 ∣ qc.toNat ∧ 4 ∣ qs.toNat ∧ 4 ∣ qa.toNat ∧ (a2 = true → qa.toNat ≤ 56) ∧
      qc ≠ qs ∧ (a1 = true → qa ≠ qc ∧ qa ≠ qs) ∧
      (a2 = true → qa.toNat + 4 ≠ qc.toNat ∧ qa.toNat + 4 ≠ qs.toNat)
    ((Instr.iso2e qc qs qa a2 a1 e).WellFormed ↔ legal) ∧ ((Instr.iso3e qc qs qa a2 a1 e).WellFormed ↔ legal))

/-! ### Steps -/

/-- Rules R57, R260: when the host's next event writes to CMD a word that decodes to `i` and no fault is recorded, the step
is `exec i`, with the event taken off the host's list and its index advanced (assumption 1). -/
def Obligations.StepRunsDecodedCommand : Prop :=
  ∀ (s : State) (c : Word) (i : Instr) (rest : List HostEvent),
    s.pending = .portWrite 0x00 c :: rest → s.fault = false → decode c = .ok i →
    step s = exec i { s with pending := rest, txnIndex := s.txnIndex + 1 }

/-- The step after a command word has been placed runs that command (assumption 3). -/
def Obligations.StepRunsPlacedWord : Prop :=
  ∀ (s : State) (w : Nat) (i : Instr), decodeTableWord 32 w = some i → s.fault = false →
    step (s.withFetchWord 32 w) = exec i { s with txnIndex := s.txnIndex + 1 }

/-- Every state has a next state. That no event stops the machine is read from rules R55, R87 and R271 (DEDUCED, assumption 13),
and that an idle core steps to the state it is in is the model's choice (DESIGN CHOICE, assumption 2). -/
def Obligations.StepAlwaysHasNextState : Prop := ∀ s : State, ∃ t, step s = .next t

/-- Rules R30, R57, R277: a step carries out one event of the host's list, in order; with none the core does nothing. The list,
its index and the record of what was read are the model's own fields (assumptions 1 and 2). -/
def Obligations.StepTakesOneTransaction : Prop :=
  (∀ s : State, s.pending = [] → step s = .next s) ∧
  (∀ (s t : State) (e : HostEvent) (rest : List HostEvent), s.pending = e :: rest → step s = .next t →
    t.pending = rest ∧ t.txnIndex = s.txnIndex + 1 ∧
    ∃ new : List Word, t.replies = new ++ s.replies ∧ (new = [] ↔ ∀ pa, e ≠ .portRead pa))

/-! ### The invariant -/

/-- Rule R38: the reset state meets the invariant. -/
def Obligations.ResetMeetsInvariant : Prop := State.reset.Inv

/-- Rules R27, R31, R32, R33, R261: every step keeps the invariant: each word of `f` and `prm` below `p`; ERRCODE and ERRCMD
zero while FAULT is 0, and together the record of a fault that ERRCMD's own word raises while FAULT is 1. -/
def Obligations.StepKeepsInvariant : Prop :=
  ∀ s t : State, s.Inv → step s = .next t → t.Inv

/-! ### Command acceptance and faults -/

/-- Rule R260: what a write of `c` to CMD does, check by check, the first that fails deciding the fault. -/
def Obligations.CommandAcceptanceOrder : Prop :=
  ∀ (s : State) (c : Word),
    (s.fault = true → commandWrite c s = .next s) ∧
    (s.fault = false →
      ((∀ i, decode c ≠ .ok i) → ∃ t, commandWrite c s = .next t ∧ AfterFault s t 1 c) ∧
      (∀ i, decode c = .ok i →
        (¬ i.WellFormed → ∃ t, commandWrite c s = .next t ∧ AfterFault s t 2 c) ∧
        (i.WellFormed →
          (isSetup i = true → s.locked = true → ∃ t, commandWrite c s = .next t ∧ AfterFault s t 3 c) ∧
          (isProtocol i = true → s.locked = false → ∃ t, commandWrite c s = .next t ∧ AfterFault s t 4 c) ∧
          (∀ ws bound, scalarDemand i = some (ws, bound) → s.locked = true → bound ≤ (s.wWord ws.toNat).toNat →
            ∃ t, commandWrite c s = .next t ∧ AfterFault s t 5 c) ∧
          ((isSetup i = true → s.locked = false) → (isProtocol i = true → s.locked = true) →
            (∀ ws bound, scalarDemand i = some (ws, bound) → (s.wWord ws.toNat).toNat < bound) →
            ∃ t, commandWrite c s = .next t ∧ exec i s = .next t ∧
              t.fault = false ∧ t.errcode = s.errcode ∧ t.errcmd = s.errcmd))))

/-- Rule R262: whatever word is written to CMD, if a fault is recorded by it then FAULT, ERRCODE and ERRCMD are all that
changed, with a code of rule R261 and the word itself. -/
def Obligations.FaultEntryIsPrecise : Prop :=
  ∀ (s t : State) (c : Word), s.fault = false → commandWrite c s = .next t → t.fault = true →
    AfterFault s t t.errcode c ∧ 1 ≤ t.errcode.toNat ∧ t.errcode.toNat ≤ 5

/-- Rule R265: PRM_CONST and PLOCK raise Fault(3) while STATUS.LOCKED = 1. -/
def Obligations.SetupFaultsWhenLocked : Prop :=
  ∀ s : State, s.fault = false → s.locked = true →
    (∀ (slot : Slot) (ws : WReg), slot.toNat ≤ 19 → ws.toNat ≤ 7 →
      RaisesFault (.prmConst slot ws) s 3 ∧
      ∃ t, commandWrite (encode (.prmConst slot ws)) s = .next t ∧ AfterFault s t 3 (encode (.prmConst slot ws))) ∧
    RaisesFault .plock s 3 ∧ ∃ t, commandWrite 0x08000000 s = .next t ∧ AfterFault s t 3 0x08000000

/-- Rule R266: the four protocol commands raise Fault(4) while STATUS.LOCKED = 0, whatever the scalar. -/
def Obligations.ProtocolFaultsWhenUnlocked : Prop :=
  ∀ (s : State) (i : Instr), isProtocol i = true → i.WellFormed → s.fault = false → s.locked = false →
    RaisesFault i s 4 ∧ ∃ t, commandWrite (encode i) s = .next t ∧ AfterFault s t 4 (encode i)

/-- Rule R267: Fault(5) for a scalar of 2^15 or more (ISOGEN2, ISOEX2) or of 2^12 or more (ISOGEN3, ISOEX3), in a well-formed
command while STATUS.LOCKED = 1; the scalar stays readable. -/
def Obligations.ScalarRangeFault : Prop :=
  ∀ s : State, s.fault = false → s.locked = true →
    (∀ (zd : PkReg) (ws : WReg), (Instr.isogen2 zd ws).WellFormed → 2 ^ 15 ≤ (s.wWord ws.toNat).toNat →
      RaisesFault (.isogen2 zd ws) s 5) ∧
    (∀ (zd : ZReg) (za : PkReg) (ws : WReg), (Instr.isoex2 zd za ws).WellFormed →
      2 ^ 15 ≤ (s.wWord ws.toNat).toNat → RaisesFault (.isoex2 zd za ws) s 5) ∧
    (∀ (zd : PkReg) (ws : WReg), (Instr.isogen3 zd ws).WellFormed → 2 ^ 12 ≤ (s.wWord ws.toNat).toNat →
      RaisesFault (.isogen3 zd ws) s 5) ∧
    (∀ (zd : ZReg) (za : PkReg) (ws : WReg), (Instr.isoex3 zd za ws).WellFormed →
      2 ^ 12 ≤ (s.wWord ws.toNat).toNat → RaisesFault (.isoex3 zd za ws) s 5)

/-- Rule R269: while STATUS.FAULT = 1 a write to CMD is ignored, port reads and writes of W ports work, and no event but a
reset clears FAULT or changes ERRCODE, ERRCMD, `f` or `prm`. -/
def Obligations.FaultStaysUntilReset : Prop :=
  ∀ (s : State) (e : HostEvent), s.fault = true →
    (∀ c, hostEvent (.portWrite 0x00 c) s = .next s) ∧
    (∀ pa, hostEvent (.portRead pa) s = .next { s with replies := portValue s pa.toNat :: s.replies }) ∧
    (∀ (k : Nat) (v : Word), k < 8 →
      ∃ t, hostEvent (.portWrite (BitVec.ofNat 8 (0x10 + k)) v) s = .next t ∧ t.wWord k = v ∧ SameButW s t k) ∧
    (¬ IsResetEvent e → ∃ t, hostEvent e s = .next t ∧ SameStatus s t ∧ t.f = s.f ∧ t.prm = s.prm) ∧
    (IsResetEvent e → ∃ t, hostEvent e s = .next t ∧ t.CoreIsReset)

/-- Rules R253, R271: the 41 commands that the lock does not gate complete with legal operands whatever the operands hold,
leave STATUS, ERRCMD and `prm` alone, and do to the rest the same in both states of the lock. -/
def Obligations.UngatedCommandsComplete : Prop :=
  ∀ (s : State) (i : Instr), i.WellFormed → isSetup i = false → isProtocol i = false →
    ∃ t, exec i s = .next t ∧ SameStatus s t ∧ t.prm = s.prm ∧ SameHost s t ∧
      ∀ b : Bool, exec i { s with locked := b } = .next { t with locked := b }

/-- Rules R31, R61, R252: once the bank is locked no event but a reset changes `prm` or clears LOCKED. -/
def Obligations.LockedBankStays : Prop :=
  ∀ (s t : State) (e : HostEvent), s.locked = true → hostEvent e s = .next t →
    (¬ IsResetEvent e → t.locked = true ∧ t.prm = s.prm) ∧ (IsResetEvent e → t.CoreIsReset)

/-- Rules R31, R54: `prm` changes only by a PRM_CONST that executes unlocked, or by a reset. -/
def Obligations.BankWrittenOnlyByPrmConst : Prop :=
  ∀ (s t : State) (e : HostEvent), hostEvent e s = .next t → t.prm ≠ s.prm →
    IsResetEvent e ∨
    (s.locked = false ∧ s.fault = false ∧ ∃ (slot : Slot) (ws : WReg),
      e = .portWrite 0x00 (encode (.prmConst slot ws)) ∧ (Instr.prmConst slot ws).WellFormed ∧
      (t.prmWord slot.toNat).toNat = (s.wWord ws.toNat).toNat % 0x0cd07fff ∧ SameButPrm s t slot.toNat)

/-- Rules R31, R235: no command but ISOGEN2 and ISOGEN3 reads `prm`: with any other bank a command other than these two and
PRM_CONST, which writes it, does the same. -/
def Obligations.BankReadOnlyByIsogen : Prop :=
  ∀ (s t : State) (i : Instr) (bank : Vector Word 20),
    (∀ zd ws, i ≠ .isogen2 zd ws) → (∀ zd ws, i ≠ .isogen3 zd ws) → (∀ slot ws, i ≠ .prmConst slot ws) →
    exec i s = .next t → exec i { s with prm := bank } = .next { t with prm := bank }

/-! ### The host port -/

/-- Rules R32, R33, R35, R36, R52, R54, R55: what a read of each mapped port returns; it changes nothing in the core. The record
of replies is the model's own field (assumption 1). -/
def Obligations.PortReadsFollowMap : Prop :=
  ∀ s : State,
    (∀ pa, ∃ v t, hostEvent (.portRead pa) s = .next t ∧ t.replies = v :: s.replies ∧ SameCore s t ∧
      t.pending = s.pending ∧ t.txnIndex = s.txnIndex ∧
      (pa = 0x00 → v = 0x00000000) ∧
      (pa = 0x01 → v.getLsbD 0 = s.locked ∧ v.getLsbD 1 = s.fault ∧ v.extractLsb' 2 2 = 0 ∧
        v.extractLsb' 4 4 = s.errcode ∧ v.extractLsb' 8 24 = 0) ∧
      (pa = 0x02 → v = s.errcmd) ∧
      (pa = 0x03 → v = 0x0cd07fff) ∧
      (pa = 0x04 → v = 0x0c0f080f) ∧
      (pa = 0x05 → v = 0x00000000) ∧
      (∀ k, k < 8 → pa.toNat = 0x10 + k → v = s.wWord k) ∧
      (∀ k, k < 64 → pa.toNat = 0x40 + k → v = s.fWord k) ∧
      (∀ k, k < 20 → pa.toNat = 0x80 + k → v = s.prmWord k))

/-- Rule R53: a host write of `w[k]`: all 32 bits, no check, in every state of the core; no other port write but one to CMD
or CTRL changes anything, so it is the only way data enters. -/
def Obligations.HostWritesIntegerRegister : Prop :=
  ∀ (s : State) (v : Word),
    (∀ k, k < 8 → ∃ t, hostEvent (.portWrite (BitVec.ofNat 8 (0x10 + k)) v) s = .next t ∧
      t.wWord k = v ∧ SameButW s t k) ∧
    (∀ pa : BitVec 8, pa ≠ 0x00 → pa ≠ 0x05 → (∀ k, k < 8 → pa.toNat ≠ 0x10 + k) →
      hostEvent (.portWrite pa v) s = .next s)

/-- Rule R55: reads of CMD, CTRL and unmapped ports return 0; writes to read-only and unmapped ports have no effect; neither
is a fault. -/
def Obligations.UnmappedAndWrongDirection : Prop :=
  ∀ (s : State) (pa : BitVec 8) (v : Word),
    let readOnly : Prop := (0x01 ≤ pa.toNat ∧ pa.toNat ≤ 0x04) ∨ (0x40 ≤ pa.toNat ∧ pa.toNat ≤ 0x7f) ∨
      (0x80 ≤ pa.toNat ∧ pa.toNat ≤ 0x93)
    let unmapped : Prop := ¬ readOnly ∧ pa.toNat ≠ 0x00 ∧ pa.toNat ≠ 0x05 ∧
      ¬ (0x10 ≤ pa.toNat ∧ pa.toNat ≤ 0x17)
    (unmapped ∨ pa.toNat = 0x00 ∨ pa.toNat = 0x05 →
      hostEvent (.portRead pa) s = .next { s with replies := 0x00000000 :: s.replies }) ∧
    (unmapped ∨ readOnly → hostEvent (.portWrite pa v) s = .next s)

/-- Rule R36: a write to CTRL resets the core if bit 0 is 1 and does nothing if it is 0; a read returns 0. -/
def Obligations.CtrlPort : Prop :=
  ∀ (s : State) (v : Word),
    (v.getLsbD 0 = true → ∃ t, hostEvent (.portWrite 0x05 v) s = .next t ∧ t.CoreIsReset ∧ SameHost s t) ∧
    (v.getLsbD 0 = false → hostEvent (.portWrite 0x05 v) s = .next s) ∧
    hostEvent (.portRead 0x05) s = .next { s with replies := 0 :: s.replies }

/-- Rule R35: MODULUS and CONFIG read their constants in every state, and writes to either have no effect. -/
def Obligations.ReadOnlyConstants : Prop :=
  ∀ s : State,
    hostEvent (.portRead 0x03) s = .next { s with replies := 0x0cd07fff :: s.replies } ∧
    (∃ v : Word, hostEvent (.portRead 0x04) s = .next { s with replies := v :: s.replies } ∧ v = 0x0c0f080f ∧
      v.extractLsb' 0 8 = 15 ∧ v.extractLsb' 8 8 = 8 ∧ v.extractLsb' 16 8 = 15 ∧ v.extractLsb' 24 8 = 12) ∧
    ∀ v : Word, hostEvent (.portWrite 0x03 v) s = .next s ∧ hostEvent (.portWrite 0x04 v) s = .next s

/-- Rules R38, R290: both resets, in every state, leave every register with its reset value (values the spec gives and calls its
own choice, D26); the machine's reset state has them too, and MODULUS and CONFIG read their constants there. -/
def Obligations.ResetValues : Prop :=
  State.reset.CoreIsReset ∧
  (∀ (s : State) (e : HostEvent), IsResetEvent e →
    ∃ t, hostEvent e s = .next t ∧ t.CoreIsReset ∧ SameHost s t ∧
      portValue t 0x01 = 0x00000000 ∧ portValue t 0x02 = 0x00000000 ∧
      portValue t 0x03 = 0x0cd07fff ∧ portValue t 0x04 = 0x0c0f080f)

/-! ### Parameter setup -/

/-- Rules R250, R252: unlocked, PRM_CONST writes the reduced constant to its slot and nothing else, and PLOCK sets LOCKED and
nothing else whatever the bank holds. -/
def Obligations.SetupCommandResults : Prop :=
  ∀ s : State, s.locked = false →
    (∀ (slot : Slot) (ws : WReg), slot.toNat ≤ 19 → ws.toNat ≤ 7 →
      ∃ t, exec (.prmConst slot ws) s = .next t ∧
        (t.prmWord slot.toNat).toNat = (s.wWord ws.toNat).toNat % 0x0cd07fff ∧ SameButPrm s t slot.toNat) ∧
    exec .plock s = .next { s with locked := true }

/-! ### The Fp unit -/

/-- Rules R112 to R116, R125: FP_ADD, FP_SUB, FP_MUL, FP_NEG, FP_SQR and FP_CONST, their results in integers. -/
def Obligations.FpArithmeticResults : Prop :=
  ∀ (s : State) (fd fa fb : FReg) (ws : WReg), s.Reduced →
    let a := (s.fWord fa.toNat).toNat
    let b := (s.fWord fb.toNat).toNat
    let p : Nat := 0x0cd07fff
    YieldsF (.fpAdd fd fa fb) s fd.toNat (if a + b < p then a + b else a + b - p) ∧
    YieldsF (.fpSub fd fa fb) s fd.toNat (if b ≤ a then a - b else a + p - b) ∧
    YieldsF (.fpMul fd fa fb) s fd.toNat (a * b % p) ∧
    YieldsF (.fpNeg fd fa) s fd.toNat (if a = 0 then 0 else p - a) ∧
    YieldsF (.fpSqr fd fa) s fd.toNat (a * a % p) ∧
    (ws.toNat ≤ 7 → YieldsF (.fpConst fd ws) s fd.toNat ((s.wWord ws.toNat).toNat % p))

/-- Rules R117, R118, R120: FP_INV, FP_POW and FP_SQRT on every operand, the powers as powers of integers. -/
def Obligations.FpPowerResults : Prop :=
  ∀ (s : State) (fd fa : FReg) (ws : WReg),
    let a := (s.fWord fa.toNat).toNat
    let p : Nat := 0x0cd07fff
    let t := a ^ ((p + 1) / 4) % p
    YieldsF (.fpInv fd fa) s fd.toNat (a ^ (p - 2) % p) ∧
    (ws.toNat ≤ 7 → YieldsF (.fpPow fd fa ws) s fd.toNat (a ^ (s.wWord ws.toNat).toNat % p)) ∧
    YieldsF (.fpSqrt fd fa) s fd.toNat (if t % 2 = 0 then t else p - t)

/-- Rules R34, R121 to R123: FP_EQ, FP_ISEVEN and FP_BIT write the whole word 0 or 1. -/
def Obligations.FpPredicateResults : Prop :=
  ∀ (s : State) (wd : WReg) (fa fb : FReg) (bit : BitVec 8), wd.toNat ≤ 7 →
    let a := (s.fWord fa.toNat).toNat
    YieldsW (.fpEq wd fa fb) s wd.toNat (if s.fWord fa.toNat = s.fWord fb.toNat then 1 else 0) ∧
    YieldsW (.fpIseven wd fa) s wd.toNat (if a % 2 = 0 then 1 else 0) ∧
    YieldsW (.fpBit wd fa bit) s wd.toNat (BitVec.ofNat 32 (a / 2 ^ bit.toNat % 2)) ∧
    (s.Reduced → 28 ≤ bit.toNat → YieldsW (.fpBit wd fa bit) s wd.toNat 0)

/-- Rule R126: the laws of the unit's functions. -/
def Obligations.FpUnitLaws : Prop :=
  ∀ a b c : Nat, a < 0x0cd07fff → b < 0x0cd07fff → c < 0x0cd07fff →
    fpAdd a b = fpAdd b a ∧ fpMul a b = fpMul b a ∧
    fpAdd (fpAdd a b) c = fpAdd a (fpAdd b c) ∧ fpMul (fpMul a b) c = fpMul a (fpMul b c) ∧
    fpMul a (fpAdd b c) = fpAdd (fpMul a b) (fpMul a c) ∧
    fpSub a b = fpAdd a (fpNeg b) ∧
    (a ≠ 0 → fpMul a (fpInv a) = 1 ∧ fpPow a (0x0cd07fff - 1) = 1)

/-- Rules R120, R124 and R127 (the last marked by the spec as its own derivation): the root FP_SQRT computes is even; it is a
root of a square, and of the negative of a non-square; FP_ISQR tells the squares modulo `p` from the others. -/
def Obligations.FpRootsAndResidues : Prop :=
  ∀ (s : State) (fd fa : FReg) (wd : WReg), s.Reduced → wd.toNat ≤ 7 →
    let a := (s.fWord fa.toNat).toNat
    ∃ r, YieldsF (.fpSqrt fd fa) s fd.toNat r ∧ r % 2 = 0 ∧
      (IsSquare (a : ZMod Config.p) →
        r * r % 0x0cd07fff = a ∧ YieldsW (.fpIsqr wd fa) s wd.toNat 1) ∧
      (¬ IsSquare (a : ZMod Config.p) →
        r * r % 0x0cd07fff = 0x0cd07fff - a ∧ 0x0cd07fff - a ≠ a ∧ YieldsW (.fpIsqr wd fa) s wd.toNat 0)

/-! ### The Fp2 unit -/

/-- Rules R141, R142, R146 to R149: the component-wise commands. -/
def Obligations.Fp2ComponentResults : Prop :=
  ∀ (s : State) (zd za zb : ZReg) (wd ws wt : WReg), s.Reduced →
    let a := s.readZ za.toNat
    let b := s.readZ zb.toNat
    let p : Nat := 0x0cd07fff
    let sub := fun x y : Nat => if y ≤ x then x - y else x + p - y
    ((Instr.fp2Add zd za zb).WellFormed →
      YieldsZ (.fp2Add zd za zb) s zd.toNat ⟨(a.x0 + b.x0) % p, (a.x1 + b.x1) % p⟩) ∧
    ((Instr.fp2Sub zd za zb).WellFormed →
      YieldsZ (.fp2Sub zd za zb) s zd.toNat ⟨sub a.x0 b.x0, sub a.x1 b.x1⟩) ∧
    ((Instr.fp2Neg zd za).WellFormed → YieldsZ (.fp2Neg zd za) s zd.toNat ⟨sub 0 a.x0, sub 0 a.x1⟩) ∧
    ((Instr.fp2Const zd ws).WellFormed →
      YieldsZ (.fp2Const zd ws) s zd.toNat ⟨(s.wWord ws.toNat).toNat % p, 0⟩) ∧
    ((Instr.fp2Constp zd ws wt).WellFormed →
      YieldsZ (.fp2Constp zd ws wt) s zd.toNat
        ⟨(s.wWord ws.toNat).toNat % p, (s.wWord wt.toNat).toNat % p⟩) ∧
    ((Instr.fp2Eq wd za zb).WellFormed →
      YieldsW (.fp2Eq wd za zb) s wd.toNat (if a.x0 = b.x0 ∧ a.x1 = b.x1 then 1 else 0))

/-- Rules R143, R144: FP2_MUL and FP2_SQR by the schoolbook formula `(a0·b0 − a1·b1, a0·b1 + a1·b0)`, though the unit uses
three multiplications. -/
def Obligations.Fp2ProductResults : Prop :=
  ∀ (s : State) (zd za zb : ZReg),
    let a := s.readZ za.toNat
    let b := s.readZ zb.toNat
    let p : Nat := 0x0cd07fff
    ((Instr.fp2Mul zd za zb).WellFormed →
      YieldsZ (.fp2Mul zd za zb) s zd.toNat
        ⟨(((a.x0 * b.x0 : Nat) - (a.x1 * b.x1 : Nat) : Int) % (p : Int)).toNat, (a.x0 * b.x1 + a.x1 * b.x0) % p⟩) ∧
    ((Instr.fp2Sqr zd za).WellFormed →
      YieldsZ (.fp2Sqr zd za) s zd.toNat
        ⟨(((a.x0 * a.x0 : Nat) - (a.x1 * a.x1 : Nat) : Int) % (p : Int)).toNat, 2 * a.x0 * a.x1 % p⟩)

/-- Rule R145: FP2_INV gives the inverse of a non-zero element and (0, 0) for (0, 0). -/
def Obligations.Fp2InvResult : Prop :=
  ∀ (s : State) (zd za : ZReg), s.Reduced → (Instr.fp2Inv zd za).WellFormed →
    ∃ v, YieldsZ (.fp2Inv zd za) s zd.toNat v ∧ Reduced2 v ∧
      (s.readZ za.toNat = ⟨0, 0⟩ → v = ⟨0, 0⟩) ∧
      (s.readZ za.toNat ≠ ⟨0, 0⟩ → toField (s.readZ za.toNat) * toField v = 1)

/-- Rules R17, R21, R141 to R146, R151: on pairs the functions of the unit are the operations of the field `Fp[i]/(i² + 1)`,
and a pair of canonical representatives stands for one element only. -/
def Obligations.Fp2UnitIsTheField : Prop :=
  (∀ a b, toField (fp2Add a b) = toField a + toField b) ∧
  (∀ a b, toField (fp2Sub a b) = toField a - toField b) ∧
  (∀ a b, toField (fp2Mul a b) = toField a * toField b) ∧
  (∀ a, toField (fp2Neg a) = - toField a) ∧
  (∀ n, toField (k2 n) = (n : FieldFp2)) ∧
  (∀ a, 2 * toField (fp2Half a) = toField a) ∧
  (∀ a b, toField b = 0 → fp2Div a b = ⟨0, 0⟩) ∧
  (∀ a b, toField b ≠ 0 → toField (fp2Div a b) * toField b = toField a) ∧
  (∀ a b, Reduced2 a → Reduced2 b → toField a = toField b → a = b)

/-- Rule R152, cases (1) to (4), which the spec marks as its own derivation from rule R150: FP2_SQRT of a real operand, the odd
residue's (0, 0) included (conflict C7). -/
def Obligations.Fp2SqrtOfReal : Prop :=
  ∀ (s : State) (zd za : ZReg), s.Reduced → (Instr.fp2Sqrt zd za).WellFormed → (s.readZ za.toNat).x1 = 0 →
    let x0 := (s.readZ za.toNat).x0
    (x0 = 0 → YieldsZ (.fp2Sqrt zd za) s zd.toNat ⟨0, 0⟩) ∧
    (¬ IsSquare (x0 : ZMod Config.p) →
      ∃ r, YieldsZ (.fp2Sqrt zd za) s zd.toNat ⟨0, r⟩ ∧ r % 2 = 0 ∧ (r * r + x0) % 0x0cd07fff = 0) ∧
    (x0 ≠ 0 → IsSquare (x0 : ZMod Config.p) → x0 % 2 = 0 →
      ∃ r, YieldsZ (.fp2Sqrt zd za) s zd.toNat ⟨r, 0⟩ ∧ r % 2 = 0 ∧ r * r % 0x0cd07fff = x0) ∧
    (x0 ≠ 0 → IsSquare (x0 : ZMod Config.p) → x0 % 2 = 1 → YieldsZ (.fp2Sqrt zd za) s zd.toNat ⟨0, 0⟩)

/-- Rule R152, cases (5) and (6), which the spec marks as its own derivation from rule R150: FP2_SQRT of an operand that is not
real: a root with even real part if there is a root, and otherwise a value that is none. -/
def Obligations.Fp2SqrtOfComplex : Prop :=
  ∀ (s : State) (zd za : ZReg), s.Reduced → (Instr.fp2Sqrt zd za).WellFormed → (s.readZ za.toNat).x1 ≠ 0 →
    let x := s.readZ za.toNat
    let norm : ZMod Config.p := (x.x0 : ZMod Config.p) ^ 2 + (x.x1 : ZMod Config.p) ^ 2
    ∃ r, YieldsZ (.fp2Sqrt zd za) s zd.toNat r ∧ Reduced2 r ∧ r.x0 % 2 = 0 ∧
      (IsSquare norm → toField r ^ 2 = toField x) ∧ (¬ IsSquare norm → toField r ^ 2 ≠ toField x)

/-! ### The point unit -/

/-- Rules R22, R171: PT_ISINF tests the four words of the sentinel. -/
def Obligations.PtIsinfResult : Prop :=
  ∀ (s : State) (wd : WReg) (qa : QReg), (Instr.ptIsinf wd qa).WellFormed →
    YieldsW (.ptIsinf wd qa) s wd.toNat
      (if s.fWord qa.toNat = 0 ∧ s.fWord (qa.toNat + 1) = 0 ∧ s.fWord (qa.toNat + 2) = 1 ∧ s.fWord (qa.toNat + 3) = 0
        then 1 else 0)

/-- Rule R172: XDBL. The tangent formula is one the spec marks "from general knowledge, not in source" (assumption 9). -/
def Obligations.XdblResult : Prop :=
  ∀ (s : State) (qd qc qa : QReg), s.Reduced → (Instr.xdbl qd qc qa).WellFormed →
    let R := xdbl (s.readCurve qc.toNat) (s.readPoint qa.toNat)
    YieldsPoint (.xdbl qd qc qa) s qd.toNat R ∧ XdblSpec (s.readCurve qc.toNat) (s.readPoint qa.toNat) R

/-- Rule R173: XADD, its four special cases in the source's order, then the chord, whose two coordinate formulas the spec marks
"from general knowledge, not in source" (assumption 9). -/
def Obligations.XaddResult : Prop :=
  ∀ (s : State) (qd qc qa : QReg) (qb : QcReg), s.Reduced → (Instr.xadd qd qc qa qb).WellFormed →
    let R := xadd (s.readCurve qc.toNat) (s.readPoint qa.toNat) (s.readPoint qb.toNat)
    YieldsPoint (.xadd qd qc qa qb) s qd.toNat R ∧
    XaddSpec (s.readCurve qc.toNat) (s.readPoint qa.toNat) (s.readPoint qb.toNat) R

/-- Rules R174 to R176: XTPL adds a point to its double; XDBLE and XTPLE repeat, a count of 0 copying the point. -/
def Obligations.RepeatedPointResults : Prop :=
  ∀ (s : State) (qd qc qa : QReg) (n : BitVec 8), s.Reduced →
    let E := s.readCurve qc.toNat
    let P := s.readPoint qa.toNat
    ((Instr.xtpl qd qc qa).WellFormed → YieldsPoint (.xtpl qd qc qa) s qd.toNat (xadd E P (xdbl E P))) ∧
    ((Instr.xdble qd qc qa n).WellFormed → YieldsPoint (.xdble qd qc qa n) s qd.toNat ((xdbl E)^[n.toNat] P)) ∧
    ((Instr.xtple qd qc qa n).WellFormed →
      YieldsPoint (.xtple qd qc qa n) s qd.toNat ((fun R => xadd E R (xdbl E R))^[n.toNat] P))

/-- Rule R177: LADDER. The scan from the highest bit down is Horner's scheme: over `m + 1` bits it doubles the result for
`k / 2` over `m` bits, then adds `P` if `k` is odd. Bits of the scalar at positions `msb` and above are ignored, so a scalar
whose low `msb` bits are 0 (the width 0 included) gives the sentinel. -/
def Obligations.LadderResult : Prop :=
  ∀ (s : State) (qd qc qa : QReg) (ws : BitVec 3) (msb : BitVec 5), s.Reduced →
    (Instr.ladder qd qc qa ws msb).WellFormed →
    let E := s.readCurve qc.toNat
    let P := s.readPoint qa.toNat
    YieldsPoint (.ladder qd qc qa ws msb) s qd.toNat (ladder E P (s.wWord ws.toNat).toNat msb.toNat) ∧
    (∀ k, ladder E P k 0 = inf) ∧
    (∀ k m, ladder E P k (m + 1) =
      if k % 2 = 1 then xadd E (xdbl E (ladder E P (k / 2) m)) P else xdbl E (ladder E P (k / 2) m)) ∧
    (∀ k m, ladder E P k m = ladder E P (k % 2 ^ m) m) ∧
    ((s.wWord ws.toNat).toNat % 2 ^ msb.toNat = 0 →
      YieldsPoint (.ladder qd qc qa ws msb) s qd.toNat ⟨⟨0, 0⟩, ⟨1, 0⟩⟩)

/-- Rule R178: JINV. -/
def Obligations.JinvResult : Prop :=
  ∀ (s : State) (zd : ZReg) (qc : QReg), (Instr.jinv zd qc).WellFormed →
    let a := toField (s.readCurve qc.toNat).a
    ∃ v, YieldsZ (.jinv zd qc) s zd.toNat v ∧ Reduced2 v ∧
      (a ^ 2 = 4 → v = ⟨0, 0⟩) ∧
      (a ^ 2 ≠ 4 → toField v * (a ^ 2 - 4) = 256 * (a ^ 2 - 3) ^ 3)

/-- Rules R24, R172, R173: on a curve with `b ≠ 0` addition stays on the curve (or gives the sentinel) and does not depend on
the order of its operands, and the double of an affine point that is not of order two is an affine point of the curve. The
formulas are ones the spec marks "from general knowledge, not in source" (PRESUMED, assumption 9). -/
def Obligations.PointsStayOnCurve : Prop :=
  ∀ (E : Curve) (P Q : Point), ReducedCurve E → ReducedPoint P → ReducedPoint Q → E.b ≠ ⟨0, 0⟩ →
    (P = inf ∨ OnCurve E P) → (Q = inf ∨ OnCurve E Q) →
    xadd E P Q = xadd E Q P ∧ (xadd E P Q = inf ∨ OnCurve E (xadd E P Q)) ∧
    (P ≠ inf → P.y ≠ ⟨0, 0⟩ → OnCurve E (xdbl E P) ∧ xdbl E P ≠ inf)

/-! ### Isogenies -/

/-- Rules R201, R203, R205: the three curve maps; the kernel point's `y` is not read. -/
def Obligations.IsogenyCurveResults : Prop :=
  ∀ (s : State) (qd qk qc : QReg),
    let x := toField (s.readZ qk.toNat)
    let a := toField (s.readCurve qc.toNat).a
    let b := toField (s.readCurve qc.toNat).b
    ((Instr.curve2iso qd qk qc).WellFormed → ∃ F, YieldsCurve (.curve2iso qd qk qc) s qd.toNat F ∧ ReducedCurve F ∧
      toField F.a = 2 * (1 - 2 * x ^ 2) ∧ toField F.b = x * b) ∧
    ((Instr.curve3iso qd qk qc).WellFormed → ∃ F, YieldsCurve (.curve3iso qd qk qc) s qd.toNat F ∧ ReducedCurve F ∧
      toField F.a = (a * x - 6 * x ^ 2 + 6) * x ∧ toField F.b = b * x ^ 2) ∧
    ((Instr.curve4iso qd qk qc).WellFormed → ∃ F, YieldsCurve (.curve4iso qd qk qc) s qd.toNat F ∧ ReducedCurve F ∧
      toField F.a = 4 * x ^ 4 - 2 ∧ 2 * toField F.b = -((x ^ 3 + x) * b))

/-- Rules R200, R202, R204, R206: the guard of the point maps: the sentinel goes to the sentinel, and so does every point at which
the denominator of the x formula is zero, the kernel point among them. The denominators of degree 3 and 4 are those of formulas
the spec marks "from general knowledge, not in source" (PRESUMED, assumption 9). -/
def Obligations.PointMapGuard : Prop :=
  ∀ (s : State) (qd qk qa : QReg), s.Reduced →
    let K := s.readPoint qk.toNat
    let P := s.readPoint qa.toNat
    (P = inf ∨ P.x = K.x →
      ((Instr.eval2iso qd qk qa).WellFormed → YieldsPoint (.eval2iso qd qk qa) s qd.toNat inf) ∧
      ((Instr.eval3iso qd qk qa).WellFormed → YieldsPoint (.eval3iso qd qk qa) s qd.toNat inf)) ∧
    (P = inf ∨ P.x = K.x ∨ eval4Denominator K.x P.x = 0 →
      (Instr.eval4iso qd qk qa).WellFormed → YieldsPoint (.eval4iso qd qk qa) s qd.toNat inf)

/-- Rules R202, R204, R206: past the guard the point maps are the rational functions of the rules. The spec marks those of degree
3 and 4 "from general knowledge, not in source" (assumption 9). -/
def Obligations.PointMapResults : Prop :=
  ∀ (s : State) (qd qk qa : QReg), s.Reduced →
    let K := s.readPoint qk.toNat
    let P := s.readPoint qa.toNat
    (P ≠ inf → P.x ≠ K.x →
      ((Instr.eval2iso qd qk qa).WellFormed →
        ∃ R, YieldsPoint (.eval2iso qd qk qa) s qd.toNat R ∧ Eval2Spec K.x P R) ∧
      ((Instr.eval3iso qd qk qa).WellFormed →
        ∃ R, YieldsPoint (.eval3iso qd qk qa) s qd.toNat R ∧ Eval3Spec K.x P R) ∧
      ((Instr.eval4iso qd qk qa).WellFormed → eval4Denominator K.x P.x ≠ 0 →
        ∃ R, YieldsPoint (.eval4iso qd qk qa) s qd.toNat R ∧ Eval4Spec K.x P R))

/-- Rules R201, R202: the degree-2 map takes a point of `E` to a point of the image curve, for a kernel point `K` of order two
that is not `((0,0),(0,0))`. -/
def Obligations.Eval2LandsOnImageCurve : Prop :=
  ∀ (E : Curve) (K P : Point), ReducedCurve E → ReducedPoint K → ReducedPoint P → E.b ≠ ⟨0, 0⟩ →
    OnCurve E K → K.y = ⟨0, 0⟩ → K.x ≠ ⟨0, 0⟩ → OnCurve E P → P.x ≠ K.x →
    OnCurve (curve2iso K E) (eval2iso K P)

/-- Rules R203, R204: the same of the degree-3 map, for a kernel point `K` of order three, that is, of a root `x3` of the
3-division polynomial `3x⁴ + 4ax³ + 6x² − 1` of the curve. The map is one the spec marks "from general knowledge, not in source"
(PRESUMED, assumption 9). -/
def Obligations.Eval3LandsOnImageCurve : Prop :=
  ∀ (E : Curve) (K P : Point), ReducedCurve E → ReducedPoint K → ReducedPoint P → E.b ≠ ⟨0, 0⟩ →
    3 * toField K.x ^ 4 + 4 * toField E.a * toField K.x ^ 3 + 6 * toField K.x ^ 2 = 1 →
    OnCurve E P → P.x ≠ K.x → OnCurve (curve3iso K E) (eval3iso K P)

/-- Rules R205, R206: the same of the degree-4 map, for a kernel point `K` of order four that does not double to `((0,0),(0,0))`,
that is, for a root `x4` of `x⁴ + 2ax³ + 6x² + 2ax + 1` (0 is never one), and a point off the poles of the map. The map is one
the spec marks "from general knowledge, not in source" (PRESUMED, assumption 9). -/
def Obligations.Eval4LandsOnImageCurve : Prop :=
  ∀ (E : Curve) (K P : Point), ReducedCurve E → ReducedPoint K → ReducedPoint P → E.b ≠ ⟨0, 0⟩ →
    toField K.x ^ 4 + 2 * toField E.a * toField K.x ^ 3 + 6 * toField K.x ^ 2 + 2 * toField E.a * toField K.x + 1 = 0 →
    OnCurve E P → P.x ≠ K.x → eval4Denominator K.x P.x ≠ 0 → OnCurve (curve4iso K E) (eval4iso K P)

/-- Rules R207 to R209: ISO2E and ISO3E write the walk's curve, generator and present auxiliary points in place, and neither
read nor write an absent one. -/
def Obligations.WalkCommandResults : Prop :=
  ∀ (s : State) (qc qs qa : QReg) (a2 a1 : Bool) (e : BitVec 6), s.Reduced →
    let v : Walk :=
      { E := s.readCurve qc.toNat, S := s.readPoint qs.toNat,
        A1 := if a1 then some (s.readPoint qa.toNat) else none,
        A2 := if a2 then some (s.readPoint (qa.toNat + 4)) else none }
    ((Instr.iso2e qc qs qa a2 a1 e).WellFormed →
      YieldsWalk (.iso2e qc qs qa a2 a1 e) s qc qs qa a2 a1 (iso2e e.toNat v)) ∧
    ((Instr.iso3e qc qs qa a2 a1 e).WellFormed →
      YieldsWalk (.iso3e qc qs qa a2 a1 e) s qc qs qa a2 a1 (iso3e e.toNat v))

/-- Rules R207, R208: the steps of the walks, each at the kernel point the current curve and generator give; a walk of length
0 changes nothing, and one of length 1 (or 2 on the 2-side) ends with the generator at the sentinel. -/
def Obligations.WalkSteps : Prop :=
  (∀ v, iso2e 0 v = v) ∧ (∀ v, iso3e 0 v = v) ∧
  (∀ n v, iso2e (2 * n + 1) v =
    let T := xdble v.E v.S (2 * n)
    iso2e (2 * n) ⟨curve2iso T v.E, eval2iso T v.S, v.A1.map (eval2iso T), v.A2.map (eval2iso T)⟩) ∧
  (∀ n v, iso2e (2 * n + 2) v =
    let T := xdble v.E v.S (2 * n)
    iso2e (2 * n) ⟨curve4iso T v.E, eval4iso T v.S, v.A1.map (eval4iso T), v.A2.map (eval4iso T)⟩) ∧
  (∀ n v, iso3e (n + 1) v =
    let T := xtple v.E v.S n
    iso3e n ⟨curve3iso T v.E, eval3iso T v.S, v.A1.map (eval3iso T), v.A2.map (eval3iso T)⟩) ∧
  (∀ v, (iso2e 1 v).S = inf ∧ (iso2e 2 v).S = inf ∧ (iso3e 1 v).S = inf)

/-! ### Protocol operations -/

/-- Rules R179, R231: GETXR; two equal points have the third abscissa (0, 0), the sentinel's. -/
def Obligations.GetxrResult : Prop :=
  ∀ (s : State) (zd : PkReg) (qc qa : QReg) (qb : QcReg), s.Reduced → (Instr.getxr zd qc qa qb).WellFormed →
    let E := s.readCurve qc.toNat
    let P := s.readPoint qa.toNat
    let Q := s.readPoint qb.toNat
    YieldsPk (.getxr zd qc qa qb) s zd.toNat ⟨P.x, Q.x, (xadd E P ⟨Q.x, fp2Neg Q.y⟩).x⟩ ∧
    (P = Q → YieldsPk (.getxr zd qc qa qb) s zd.toNat ⟨P.x, P.x, ⟨0, 0⟩⟩)

/-- Rule R232: RECOVER. The curve coefficient's formula is one the spec marks "from general knowledge, not in source"
(assumption 9). -/
def Obligations.RecoverResult : Prop :=
  ∀ (s : State) (qd : T3Reg) (za : PkReg), s.Reduced → (Instr.recover qd za).WellFormed →
    ∃ E P Q, YieldsT3 (.recover qd za) s qd.toNat E P Q ∧ RecoverSpec (s.readPk za.toNat) E P Q

/-- Rules R233, R234, R239: ISOGEN2 and ISOGEN3: kernel generator, walk from the start curve carrying the other side's base
points, then the three abscissas of their images. Only the six words of the public key are written. -/
def Obligations.IsogenResults : Prop :=
  ∀ (s : State) (zd : PkReg) (ws : WReg), s.Reduced → s.locked = true →
    let prm2 : Nat → Fp2 := fun r => ⟨(s.prmWord r).toNat, (s.prmWord (r + 1)).toNat⟩
    let pt : Nat → Point := fun r => ⟨prm2 r, prm2 (r + 2)⟩
    let E0 : Curve := ⟨prm2 0, prm2 2⟩
    let k := (s.wWord ws.toNat).toNat
    ((Instr.isogen2 zd ws).WellFormed → k < 2 ^ 15 →
      let S := xadd E0 (pt 4) (ladder E0 (pt 8) k 15)
      ∃ E S' A1 A2, iso2e 15 ⟨E0, S, some (pt 12), some (pt 16)⟩ = ⟨E, S', some A1, some A2⟩ ∧
        YieldsPk (.isogen2 zd ws) s zd.toNat ⟨A1.x, A2.x, (xadd E A1 ⟨A2.x, fp2Neg A2.y⟩).x⟩) ∧
    ((Instr.isogen3 zd ws).WellFormed → k < 2 ^ 12 →
      let S := xadd E0 (pt 12) (ladder E0 (pt 16) k 12)
      ∃ E S' A1 A2, iso3e 8 ⟨E0, S, some (pt 4), some (pt 8)⟩ = ⟨E, S', some A1, some A2⟩ ∧
        YieldsPk (.isogen3 zd ws) s zd.toNat ⟨A1.x, A2.x, (xadd E A1 ⟨A2.x, fp2Neg A2.y⟩).x⟩) ∧
    (xadd E0 (pt 4) (ladder E0 (pt 8) 0 15) = pt 4 ∧ xadd E0 (pt 12) (ladder E0 (pt 16) 0 12) = pt 12)

/-- Rules R235, R237: ISOEX2 and ISOEX3: the curve and points recovered from the public key, kernel generator, walk with no
auxiliary point, j-invariant. Only the two words of the result are written. The formula of the recovered coefficient (rule R232)
is one the spec marks "from general knowledge, not in source" (PRESUMED, assumption 9). -/
def Obligations.IsoexResults : Prop :=
  ∀ (s : State) (zd : ZReg) (za : PkReg) (ws : WReg), s.Reduced → s.locked = true →
    let k := (s.wWord ws.toNat).toNat
    ((Instr.isoex2 zd za ws).WellFormed → k < 2 ^ 15 →
      ∃ E P Q, RecoverSpec (s.readPk za.toNat) E P Q ∧
        YieldsZ (.isoex2 zd za ws) s zd.toNat
          (jinv (iso2e 15 ⟨E, xadd E P (ladder E Q k 15), none, none⟩).E)) ∧
    ((Instr.isoex3 zd za ws).WellFormed → k < 2 ^ 12 →
      ∃ E P Q, RecoverSpec (s.readPk za.toNat) E P Q ∧
        YieldsZ (.isoex3 zd za ws) s zd.toNat
          (jinv (iso3e 8 ⟨E, xadd E P (ladder E Q k 12), none, none⟩).E))

/-! ### The setup sequence -/

/-- Rules R251, R253: from any unlocked state without a recorded fault, the 41 transactions of the setup sequence load the bank
with the residues of the 20 constants and lock it, with no fault and no change in `f`. -/
def Obligations.SetupSequenceLocksBank : Prop :=
  ∀ (staticParams : Vector Word 20) (s : State), s.locked = false → s.fault = false →
    s.pending = setupSequence staticParams →
    s.pending.length = 41 ∧
    ∃ t : State, Sys2Proof.core.run 41 s = .next t ∧ t.pending = [] ∧ t.locked = true ∧ t.fault = false ∧ t.f = s.f ∧
      ∀ (k : Nat) (h : k < 20), (t.prmWord k).toNat = (staticParams[k]).toNat % 0x0cd07fff
end

