-- ==== Sys2Proof/Laws/State.lean ====
section
/-! SUPPORT. What each update leaves in each field it does not write, one lemma per field per update. -/

namespace Sys2Proof.Machine

/-! ### `writeF` -/

@[simp] theorem State.writeF_w (s : State) (i : Nat) (v : Nat) : (s.writeF i v).w = s.w := rfl
@[simp] theorem State.writeF_prm (s : State) (i : Nat) (v : Nat) : (s.writeF i v).prm = s.prm := rfl
@[simp] theorem State.writeF_locked (s : State) (i : Nat) (v : Nat) : (s.writeF i v).locked = s.locked := rfl
@[simp] theorem State.writeF_fault (s : State) (i : Nat) (v : Nat) : (s.writeF i v).fault = s.fault := rfl
@[simp] theorem State.writeF_errcode (s : State) (i : Nat) (v : Nat) : (s.writeF i v).errcode = s.errcode := rfl
@[simp] theorem State.writeF_errcmd (s : State) (i : Nat) (v : Nat) : (s.writeF i v).errcmd = s.errcmd := rfl
@[simp] theorem State.writeF_pending (s : State) (i : Nat) (v : Nat) : (s.writeF i v).pending = s.pending := rfl
@[simp] theorem State.writeF_txnIndex (s : State) (i : Nat) (v : Nat) : (s.writeF i v).txnIndex = s.txnIndex := rfl
@[simp] theorem State.writeF_replies (s : State) (i : Nat) (v : Nat) : (s.writeF i v).replies = s.replies := rfl

/-! ### `writeW` -/

@[simp] theorem State.writeW_f (s : State) (i : Nat) (v : Word) : (s.writeW i v).f = s.f := rfl
@[simp] theorem State.writeW_prm (s : State) (i : Nat) (v : Word) : (s.writeW i v).prm = s.prm := rfl
@[simp] theorem State.writeW_locked (s : State) (i : Nat) (v : Word) : (s.writeW i v).locked = s.locked := rfl
@[simp] theorem State.writeW_fault (s : State) (i : Nat) (v : Word) : (s.writeW i v).fault = s.fault := rfl
@[simp] theorem State.writeW_errcode (s : State) (i : Nat) (v : Word) : (s.writeW i v).errcode = s.errcode := rfl
@[simp] theorem State.writeW_errcmd (s : State) (i : Nat) (v : Word) : (s.writeW i v).errcmd = s.errcmd := rfl
@[simp] theorem State.writeW_pending (s : State) (i : Nat) (v : Word) : (s.writeW i v).pending = s.pending := rfl
@[simp] theorem State.writeW_txnIndex (s : State) (i : Nat) (v : Word) : (s.writeW i v).txnIndex = s.txnIndex := rfl
@[simp] theorem State.writeW_replies (s : State) (i : Nat) (v : Word) : (s.writeW i v).replies = s.replies := rfl

/-! ### `writePredicate` -/

@[simp] theorem State.writePredicate_f (s : State) (i : Nat) (b : Bool) : (s.writePredicate i b).f = s.f := rfl
@[simp] theorem State.writePredicate_prm (s : State) (i : Nat) (b : Bool) : (s.writePredicate i b).prm = s.prm := rfl
@[simp] theorem State.writePredicate_locked (s : State) (i : Nat) (b : Bool) : (s.writePredicate i b).locked = s.locked := rfl
@[simp] theorem State.writePredicate_fault (s : State) (i : Nat) (b : Bool) : (s.writePredicate i b).fault = s.fault := rfl
@[simp] theorem State.writePredicate_errcode (s : State) (i : Nat) (b : Bool) : (s.writePredicate i b).errcode = s.errcode := rfl
@[simp] theorem State.writePredicate_errcmd (s : State) (i : Nat) (b : Bool) : (s.writePredicate i b).errcmd = s.errcmd := rfl
@[simp] theorem State.writePredicate_pending (s : State) (i : Nat) (b : Bool) : (s.writePredicate i b).pending = s.pending := rfl
@[simp] theorem State.writePredicate_txnIndex (s : State) (i : Nat) (b : Bool) : (s.writePredicate i b).txnIndex = s.txnIndex := rfl
@[simp] theorem State.writePredicate_replies (s : State) (i : Nat) (b : Bool) : (s.writePredicate i b).replies = s.replies := rfl

/-! ### `writePrm` -/

@[simp] theorem State.writePrm_f (s : State) (i : Nat) (v : Nat) : (s.writePrm i v).f = s.f := rfl
@[simp] theorem State.writePrm_w (s : State) (i : Nat) (v : Nat) : (s.writePrm i v).w = s.w := rfl
@[simp] theorem State.writePrm_locked (s : State) (i : Nat) (v : Nat) : (s.writePrm i v).locked = s.locked := rfl
@[simp] theorem State.writePrm_fault (s : State) (i : Nat) (v : Nat) : (s.writePrm i v).fault = s.fault := rfl
@[simp] theorem State.writePrm_errcode (s : State) (i : Nat) (v : Nat) : (s.writePrm i v).errcode = s.errcode := rfl
@[simp] theorem State.writePrm_errcmd (s : State) (i : Nat) (v : Nat) : (s.writePrm i v).errcmd = s.errcmd := rfl
@[simp] theorem State.writePrm_pending (s : State) (i : Nat) (v : Nat) : (s.writePrm i v).pending = s.pending := rfl
@[simp] theorem State.writePrm_txnIndex (s : State) (i : Nat) (v : Nat) : (s.writePrm i v).txnIndex = s.txnIndex := rfl
@[simp] theorem State.writePrm_replies (s : State) (i : Nat) (v : Nat) : (s.writePrm i v).replies = s.replies := rfl

/-! ### `faultEntry` -/

@[simp] theorem State.faultEntry_f (s : State) (cause : FaultCause) (c : Word) : (s.faultEntry cause c).f = s.f := rfl
@[simp] theorem State.faultEntry_w (s : State) (cause : FaultCause) (c : Word) : (s.faultEntry cause c).w = s.w := rfl
@[simp] theorem State.faultEntry_prm (s : State) (cause : FaultCause) (c : Word) : (s.faultEntry cause c).prm = s.prm := rfl
@[simp] theorem State.faultEntry_locked (s : State) (cause : FaultCause) (c : Word) : (s.faultEntry cause c).locked = s.locked := rfl
@[simp] theorem State.faultEntry_fault (s : State) (cause : FaultCause) (c : Word) : (s.faultEntry cause c).fault = true := rfl
@[simp] theorem State.faultEntry_errcode (s : State) (cause : FaultCause) (c : Word) : (s.faultEntry cause c).errcode = faultCode cause := rfl
@[simp] theorem State.faultEntry_errcmd (s : State) (cause : FaultCause) (c : Word) : (s.faultEntry cause c).errcmd = c := rfl
@[simp] theorem State.faultEntry_pending (s : State) (cause : FaultCause) (c : Word) : (s.faultEntry cause c).pending = s.pending := rfl
@[simp] theorem State.faultEntry_txnIndex (s : State) (cause : FaultCause) (c : Word) : (s.faultEntry cause c).txnIndex = s.txnIndex := rfl
@[simp] theorem State.faultEntry_replies (s : State) (cause : FaultCause) (c : Word) : (s.faultEntry cause c).replies = s.replies := rfl

/-! ### `taken` -/

@[simp] theorem State.taken_f (s : State) (rest : List HostEvent) : (s.taken rest).f = s.f := rfl
@[simp] theorem State.taken_w (s : State) (rest : List HostEvent) : (s.taken rest).w = s.w := rfl
@[simp] theorem State.taken_prm (s : State) (rest : List HostEvent) : (s.taken rest).prm = s.prm := rfl
@[simp] theorem State.taken_locked (s : State) (rest : List HostEvent) : (s.taken rest).locked = s.locked := rfl
@[simp] theorem State.taken_fault (s : State) (rest : List HostEvent) : (s.taken rest).fault = s.fault := rfl
@[simp] theorem State.taken_errcode (s : State) (rest : List HostEvent) : (s.taken rest).errcode = s.errcode := rfl
@[simp] theorem State.taken_errcmd (s : State) (rest : List HostEvent) : (s.taken rest).errcmd = s.errcmd := rfl
@[simp] theorem State.taken_pending (s : State) (rest : List HostEvent) : (s.taken rest).pending = rest := rfl
@[simp] theorem State.taken_txnIndex (s : State) (rest : List HostEvent) : (s.taken rest).txnIndex = s.txnIndex + 1 := rfl
@[simp] theorem State.taken_replies (s : State) (rest : List HostEvent) : (s.taken rest).replies = s.replies := rfl

/-! ### `resetCore` -/

@[simp] theorem State.resetCore_f (s : State) : (s.resetCore).f = State.reset.f := rfl
@[simp] theorem State.resetCore_w (s : State) : (s.resetCore).w = State.reset.w := rfl
@[simp] theorem State.resetCore_prm (s : State) : (s.resetCore).prm = State.reset.prm := rfl
@[simp] theorem State.resetCore_locked (s : State) : (s.resetCore).locked = false := rfl
@[simp] theorem State.resetCore_fault (s : State) : (s.resetCore).fault = false := rfl
@[simp] theorem State.resetCore_errcode (s : State) : (s.resetCore).errcode = 0 := rfl
@[simp] theorem State.resetCore_errcmd (s : State) : (s.resetCore).errcmd = 0 := rfl
@[simp] theorem State.resetCore_pending (s : State) : (s.resetCore).pending = s.pending := rfl
@[simp] theorem State.resetCore_txnIndex (s : State) : (s.resetCore).txnIndex = s.txnIndex := rfl
@[simp] theorem State.resetCore_replies (s : State) : (s.resetCore).replies = s.replies := rfl

/-! ### `writeZ` -/

@[simp] theorem State.writeZ_w (s : State) (r : Nat) (v : Fp2) : (s.writeZ r v).w = s.w := rfl
@[simp] theorem State.writeZ_prm (s : State) (r : Nat) (v : Fp2) : (s.writeZ r v).prm = s.prm := rfl
@[simp] theorem State.writeZ_locked (s : State) (r : Nat) (v : Fp2) : (s.writeZ r v).locked = s.locked := rfl
@[simp] theorem State.writeZ_fault (s : State) (r : Nat) (v : Fp2) : (s.writeZ r v).fault = s.fault := rfl
@[simp] theorem State.writeZ_errcode (s : State) (r : Nat) (v : Fp2) : (s.writeZ r v).errcode = s.errcode := rfl
@[simp] theorem State.writeZ_errcmd (s : State) (r : Nat) (v : Fp2) : (s.writeZ r v).errcmd = s.errcmd := rfl
@[simp] theorem State.writeZ_pending (s : State) (r : Nat) (v : Fp2) : (s.writeZ r v).pending = s.pending := rfl
@[simp] theorem State.writeZ_txnIndex (s : State) (r : Nat) (v : Fp2) : (s.writeZ r v).txnIndex = s.txnIndex := rfl
@[simp] theorem State.writeZ_replies (s : State) (r : Nat) (v : Fp2) : (s.writeZ r v).replies = s.replies := rfl

/-! ### `writePoint` -/

@[simp] theorem State.writePoint_w (s : State) (r : Nat) (P : Point) : (s.writePoint r P).w = s.w := by
  simp only [State.writePoint, State.writeZ_w]
@[simp] theorem State.writePoint_prm (s : State) (r : Nat) (P : Point) : (s.writePoint r P).prm = s.prm := by
  simp only [State.writePoint, State.writeZ_prm]
@[simp] theorem State.writePoint_locked (s : State) (r : Nat) (P : Point) : (s.writePoint r P).locked = s.locked := by
  simp only [State.writePoint, State.writeZ_locked]
@[simp] theorem State.writePoint_fault (s : State) (r : Nat) (P : Point) : (s.writePoint r P).fault = s.fault := by
  simp only [State.writePoint, State.writeZ_fault]
@[simp] theorem State.writePoint_errcode (s : State) (r : Nat) (P : Point) : (s.writePoint r P).errcode = s.errcode := by
  simp only [State.writePoint, State.writeZ_errcode]
@[simp] theorem State.writePoint_errcmd (s : State) (r : Nat) (P : Point) : (s.writePoint r P).errcmd = s.errcmd := by
  simp only [State.writePoint, State.writeZ_errcmd]
@[simp] theorem State.writePoint_pending (s : State) (r : Nat) (P : Point) : (s.writePoint r P).pending = s.pending := by
  simp only [State.writePoint, State.writeZ_pending]
@[simp] theorem State.writePoint_txnIndex (s : State) (r : Nat) (P : Point) : (s.writePoint r P).txnIndex = s.txnIndex := by
  simp only [State.writePoint, State.writeZ_txnIndex]
@[simp] theorem State.writePoint_replies (s : State) (r : Nat) (P : Point) : (s.writePoint r P).replies = s.replies := by
  simp only [State.writePoint, State.writeZ_replies]

/-! ### `writeCurve` -/

@[simp] theorem State.writeCurve_w (s : State) (r : Nat) (E : Curve) : (s.writeCurve r E).w = s.w := by
  simp only [State.writeCurve, State.writeZ_w]
@[simp] theorem State.writeCurve_prm (s : State) (r : Nat) (E : Curve) : (s.writeCurve r E).prm = s.prm := by
  simp only [State.writeCurve, State.writeZ_prm]
@[simp] theorem State.writeCurve_locked (s : State) (r : Nat) (E : Curve) : (s.writeCurve r E).locked = s.locked := by
  simp only [State.writeCurve, State.writeZ_locked]
@[simp] theorem State.writeCurve_fault (s : State) (r : Nat) (E : Curve) : (s.writeCurve r E).fault = s.fault := by
  simp only [State.writeCurve, State.writeZ_fault]
@[simp] theorem State.writeCurve_errcode (s : State) (r : Nat) (E : Curve) : (s.writeCurve r E).errcode = s.errcode := by
  simp only [State.writeCurve, State.writeZ_errcode]
@[simp] theorem State.writeCurve_errcmd (s : State) (r : Nat) (E : Curve) : (s.writeCurve r E).errcmd = s.errcmd := by
  simp only [State.writeCurve, State.writeZ_errcmd]
@[simp] theorem State.writeCurve_pending (s : State) (r : Nat) (E : Curve) : (s.writeCurve r E).pending = s.pending := by
  simp only [State.writeCurve, State.writeZ_pending]
@[simp] theorem State.writeCurve_txnIndex (s : State) (r : Nat) (E : Curve) : (s.writeCurve r E).txnIndex = s.txnIndex := by
  simp only [State.writeCurve, State.writeZ_txnIndex]
@[simp] theorem State.writeCurve_replies (s : State) (r : Nat) (E : Curve) : (s.writeCurve r E).replies = s.replies := by
  simp only [State.writeCurve, State.writeZ_replies]

/-! ### `writePk` -/

@[simp] theorem State.writePk_w (s : State) (r : Nat) (k : PublicKey) : (s.writePk r k).w = s.w := by
  simp only [State.writePk, State.writeZ_w]
@[simp] theorem State.writePk_prm (s : State) (r : Nat) (k : PublicKey) : (s.writePk r k).prm = s.prm := by
  simp only [State.writePk, State.writeZ_prm]
@[simp] theorem State.writePk_locked (s : State) (r : Nat) (k : PublicKey) : (s.writePk r k).locked = s.locked := by
  simp only [State.writePk, State.writeZ_locked]
@[simp] theorem State.writePk_fault (s : State) (r : Nat) (k : PublicKey) : (s.writePk r k).fault = s.fault := by
  simp only [State.writePk, State.writeZ_fault]
@[simp] theorem State.writePk_errcode (s : State) (r : Nat) (k : PublicKey) : (s.writePk r k).errcode = s.errcode := by
  simp only [State.writePk, State.writeZ_errcode]
@[simp] theorem State.writePk_errcmd (s : State) (r : Nat) (k : PublicKey) : (s.writePk r k).errcmd = s.errcmd := by
  simp only [State.writePk, State.writeZ_errcmd]
@[simp] theorem State.writePk_pending (s : State) (r : Nat) (k : PublicKey) : (s.writePk r k).pending = s.pending := by
  simp only [State.writePk, State.writeZ_pending]
@[simp] theorem State.writePk_txnIndex (s : State) (r : Nat) (k : PublicKey) : (s.writePk r k).txnIndex = s.txnIndex := by
  simp only [State.writePk, State.writeZ_txnIndex]
@[simp] theorem State.writePk_replies (s : State) (r : Nat) (k : PublicKey) : (s.writePk r k).replies = s.replies := by
  simp only [State.writePk, State.writeZ_replies]

/-! ### `writeT3` -/

@[simp] theorem State.writeT3_w (s : State) (r : Nat) (E : Curve) (P Q : Point) : (s.writeT3 r E P Q).w = s.w := by
  simp only [State.writeT3, State.writeCurve_w, State.writePoint_w]
@[simp] theorem State.writeT3_prm (s : State) (r : Nat) (E : Curve) (P Q : Point) : (s.writeT3 r E P Q).prm = s.prm := by
  simp only [State.writeT3, State.writeCurve_prm, State.writePoint_prm]
@[simp] theorem State.writeT3_locked (s : State) (r : Nat) (E : Curve) (P Q : Point) : (s.writeT3 r E P Q).locked = s.locked := by
  simp only [State.writeT3, State.writeCurve_locked, State.writePoint_locked]
@[simp] theorem State.writeT3_fault (s : State) (r : Nat) (E : Curve) (P Q : Point) : (s.writeT3 r E P Q).fault = s.fault := by
  simp only [State.writeT3, State.writeCurve_fault, State.writePoint_fault]
@[simp] theorem State.writeT3_errcode (s : State) (r : Nat) (E : Curve) (P Q : Point) : (s.writeT3 r E P Q).errcode = s.errcode := by
  simp only [State.writeT3, State.writeCurve_errcode, State.writePoint_errcode]
@[simp] theorem State.writeT3_errcmd (s : State) (r : Nat) (E : Curve) (P Q : Point) : (s.writeT3 r E P Q).errcmd = s.errcmd := by
  simp only [State.writeT3, State.writeCurve_errcmd, State.writePoint_errcmd]
@[simp] theorem State.writeT3_pending (s : State) (r : Nat) (E : Curve) (P Q : Point) : (s.writeT3 r E P Q).pending = s.pending := by
  simp only [State.writeT3, State.writeCurve_pending, State.writePoint_pending]
@[simp] theorem State.writeT3_txnIndex (s : State) (r : Nat) (E : Curve) (P Q : Point) : (s.writeT3 r E P Q).txnIndex = s.txnIndex := by
  simp only [State.writeT3, State.writeCurve_txnIndex, State.writePoint_txnIndex]
@[simp] theorem State.writeT3_replies (s : State) (r : Nat) (E : Curve) (P Q : Point) : (s.writeT3 r E P Q).replies = s.replies := by
  simp only [State.writeT3, State.writeCurve_replies, State.writePoint_replies]

/-! ### Optional writes and walks -/

@[simp] theorem State.writePointIf_w (s : State) (r : Nat) (P : Option Point) :
    (s.writePointIf r P).w = s.w := by
  cases P <;> simp only [State.writePointIf, State.writePoint_w]
@[simp] theorem State.writeWalk_w (s : State) (qc qs qa : QReg) (v : Walk) :
    (s.writeWalk qc qs qa v).w = s.w := by
  simp only [State.writeWalk, State.writePointIf_w, State.writePoint_w, State.writeCurve_w]
@[simp] theorem State.writePointIf_prm (s : State) (r : Nat) (P : Option Point) :
    (s.writePointIf r P).prm = s.prm := by
  cases P <;> simp only [State.writePointIf, State.writePoint_prm]
@[simp] theorem State.writeWalk_prm (s : State) (qc qs qa : QReg) (v : Walk) :
    (s.writeWalk qc qs qa v).prm = s.prm := by
  simp only [State.writeWalk, State.writePointIf_prm, State.writePoint_prm, State.writeCurve_prm]
@[simp] theorem State.writePointIf_locked (s : State) (r : Nat) (P : Option Point) :
    (s.writePointIf r P).locked = s.locked := by
  cases P <;> simp only [State.writePointIf, State.writePoint_locked]
@[simp] theorem State.writeWalk_locked (s : State) (qc qs qa : QReg) (v : Walk) :
    (s.writeWalk qc qs qa v).locked = s.locked := by
  simp only [State.writeWalk, State.writePointIf_locked, State.writePoint_locked, State.writeCurve_locked]
@[simp] theorem State.writePointIf_fault (s : State) (r : Nat) (P : Option Point) :
    (s.writePointIf r P).fault = s.fault := by
  cases P <;> simp only [State.writePointIf, State.writePoint_fault]
@[simp] theorem State.writeWalk_fault (s : State) (qc qs qa : QReg) (v : Walk) :
    (s.writeWalk qc qs qa v).fault = s.fault := by
  simp only [State.writeWalk, State.writePointIf_fault, State.writePoint_fault, State.writeCurve_fault]
@[simp] theorem State.writePointIf_errcode (s : State) (r : Nat) (P : Option Point) :
    (s.writePointIf r P).errcode = s.errcode := by
  cases P <;> simp only [State.writePointIf, State.writePoint_errcode]
@[simp] theorem State.writeWalk_errcode (s : State) (qc qs qa : QReg) (v : Walk) :
    (s.writeWalk qc qs qa v).errcode = s.errcode := by
  simp only [State.writeWalk, State.writePointIf_errcode, State.writePoint_errcode, State.writeCurve_errcode]
@[simp] theorem State.writePointIf_errcmd (s : State) (r : Nat) (P : Option Point) :
    (s.writePointIf r P).errcmd = s.errcmd := by
  cases P <;> simp only [State.writePointIf, State.writePoint_errcmd]
@[simp] theorem State.writeWalk_errcmd (s : State) (qc qs qa : QReg) (v : Walk) :
    (s.writeWalk qc qs qa v).errcmd = s.errcmd := by
  simp only [State.writeWalk, State.writePointIf_errcmd, State.writePoint_errcmd, State.writeCurve_errcmd]
@[simp] theorem State.writePointIf_pending (s : State) (r : Nat) (P : Option Point) :
    (s.writePointIf r P).pending = s.pending := by
  cases P <;> simp only [State.writePointIf, State.writePoint_pending]
@[simp] theorem State.writeWalk_pending (s : State) (qc qs qa : QReg) (v : Walk) :
    (s.writeWalk qc qs qa v).pending = s.pending := by
  simp only [State.writeWalk, State.writePointIf_pending, State.writePoint_pending, State.writeCurve_pending]
@[simp] theorem State.writePointIf_txnIndex (s : State) (r : Nat) (P : Option Point) :
    (s.writePointIf r P).txnIndex = s.txnIndex := by
  cases P <;> simp only [State.writePointIf, State.writePoint_txnIndex]
@[simp] theorem State.writeWalk_txnIndex (s : State) (qc qs qa : QReg) (v : Walk) :
    (s.writeWalk qc qs qa v).txnIndex = s.txnIndex := by
  simp only [State.writeWalk, State.writePointIf_txnIndex, State.writePoint_txnIndex, State.writeCurve_txnIndex]
@[simp] theorem State.writePointIf_replies (s : State) (r : Nat) (P : Option Point) :
    (s.writePointIf r P).replies = s.replies := by
  cases P <;> simp only [State.writePointIf, State.writePoint_replies]
@[simp] theorem State.writeWalk_replies (s : State) (qc qs qa : QReg) (v : Walk) :
    (s.writeWalk qc qs qa v).replies = s.replies := by
  simp only [State.writeWalk, State.writePointIf_replies, State.writePoint_replies, State.writeCurve_replies]

end Sys2Proof.Machine
end

