-- ==== Sys2Proof/Laws/Accept.lean ====
section
/-! SUPPORT. What the shared checks of rule R260 can answer, once each: every command goes on in a next state, and which one. -/

namespace Sys2Proof.Machine

theorem command_legal {i : Instr} (s t : State) (h : operandsLegal i = true) : command i s t = .next t := by
  simp [command, withLegalOperands, h]

theorem command_illegal {i : Instr} (s t : State) (h : operandsLegal i = false) :
    command i s t = .next (s.faultEntry .illegalOperand (encode i)) := by
  simp [command, withLegalOperands, h, raiseFault]

/-- All that `command` can answer. -/
theorem command_cases {i : Instr} {s t u : State} (h : command i s t = .next u) :
    (operandsLegal i = true ∧ u = t) ∨
    (operandsLegal i = false ∧ u = s.faultEntry .illegalOperand (encode i)) := by
  cases hl : operandsLegal i
  · rw [command_illegal s t hl] at h; exact .inr ⟨rfl, by simpa using h.symm⟩
  · rw [command_legal s t hl] at h; exact .inl ⟨rfl, by simpa using h.symm⟩

/-- All that `setupCommand` can answer. -/
theorem setupCommand_cases {i : Instr} {s t u : State} (h : setupCommand i s t = .next u) :
    (operandsLegal i = true ∧ s.locked = false ∧ u = t) ∨
    (operandsLegal i = false ∧ u = s.faultEntry .illegalOperand (encode i)) ∨
    (operandsLegal i = true ∧ s.locked = true ∧ u = s.faultEntry .parametersLocked (encode i)) := by
  cases hl : operandsLegal i <;> cases hk : s.locked <;>
    simp [setupCommand, withLegalOperands, raiseFault, hl, hk] at h <;> simp [h]

/-- All that `protocolCommand` can answer. -/
theorem protocolCommand_cases {i : Instr} {k bound : Nat} {s t u : State}
    (h : protocolCommand i k bound s t = .next u) :
    (operandsLegal i = true ∧ s.locked = true ∧ k < bound ∧ u = t) ∨
    (operandsLegal i = false ∧ u = s.faultEntry .illegalOperand (encode i)) ∨
    (operandsLegal i = true ∧ s.locked = false ∧ u = s.faultEntry .parametersNotSetUp (encode i)) ∨
    (operandsLegal i = true ∧ s.locked = true ∧ bound ≤ k ∧
      u = s.faultEntry .invalidScalarRange (encode i)) := by
  by_cases hb : bound ≤ k
  · cases hl : operandsLegal i <;> cases hk : s.locked <;>
      simp [protocolCommand, withLegalOperands, raiseFault, hl, hk, hb] at h <;> simp [h, hb]
  · cases hl : operandsLegal i <;> cases hk : s.locked <;>
      simp [protocolCommand, withLegalOperands, raiseFault, hl, hk, hb] at h <;> simp [h, Nat.lt_of_not_le hb]

theorem setupCommand_unlocked {i : Instr} (s t : State) (h : operandsLegal i = true) (hk : s.locked = false) :
    setupCommand i s t = .next t := by
  simp [setupCommand, withLegalOperands, h, hk]

theorem protocolCommand_ready {i : Instr} {k bound : Nat} (s t : State) (h : operandsLegal i = true)
    (hk : s.locked = true) (hb : k < bound) : protocolCommand i k bound s t = .next t := by
  simp [protocolCommand, withLegalOperands, h, hk, Nat.not_le_of_lt hb]

end Sys2Proof.Machine
end

