-- ==== Sys2Proof/Laws/Arith.lean ====
section
/-! SUPPORT. Every function of the Fp and Fp2 units returns canonical representatives, whatever its operands hold, and
every point, curve and walk function returns canonical representatives of operands that are. -/

namespace Sys2Proof.Machine

open Config (p)

/-! ### Fp: unconditional bounds -/

theorem p_pos : 0 < p := by decide
theorem p_lt_word : p < 2 ^ 32 := by decide

theorem red_lt (v : Nat) : red v < p := Nat.mod_lt _ p_pos

theorem redInt_lt (v : Int) : redInt v < p := by
  have h : v % (p : Int) < (p : Int) := Int.emod_lt_of_pos v (by decide)
  have h0 : 0 ≤ v % (p : Int) := Int.emod_nonneg v (by decide)
  rw [redInt, Int.toNat_lt h0]
  exact h

theorem fpAdd_lt (a b : Nat) : fpAdd a b < p := red_lt _
theorem fpSub_lt (a b : Nat) : fpSub a b < p := redInt_lt _
theorem fpMul_lt (a b : Nat) : fpMul a b < p := red_lt _
theorem fpNeg_lt (a : Nat) : fpNeg a < p := redInt_lt _
theorem fpSqr_lt (a : Nat) : fpSqr a < p := fpMul_lt _ _
theorem fpConst_lt (v : Word) : fpConst v < p := red_lt _
theorem fpHalf_lt (a : Nat) : fpHalf a < p := fpMul_lt _ _

theorem fpPowLoop_lt (a e : Nat) (n : Nat) {r : Nat} (hr : r < p) : fpPowLoop a e n r < p := by
  induction n generalizing r with
  | zero => exact hr
  | succ n ih =>
    unfold fpPowLoop
    apply ih
    split
    · exact fpMul_lt _ _
    · exact fpMul_lt _ _

theorem fpPow_lt (a : Nat) (e : Nat) : fpPow a e < p := fpPowLoop_lt a e 32 (by decide)
theorem fpInv_lt (a : Nat) : fpInv a < p := fpPow_lt _ _

theorem fpSqrt_lt (a : Nat) : fpSqrt a < p := by
  unfold fpSqrt
  dsimp only
  split
  · exact fpPow_lt _ _
  · exact fpNeg_lt _

/-! ### Fp2: unconditional bounds -/

theorem fp2Add_reduced (a b : Fp2) : Reduced2 (fp2Add a b) := ⟨fpAdd_lt _ _, fpAdd_lt _ _⟩
theorem fp2Sub_reduced (a b : Fp2) : Reduced2 (fp2Sub a b) := ⟨fpSub_lt _ _, fpSub_lt _ _⟩
theorem fp2Mul_reduced (a b : Fp2) : Reduced2 (fp2Mul a b) := ⟨fpSub_lt _ _, fpSub_lt _ _⟩
theorem fp2Sqr_reduced (a : Fp2) : Reduced2 (fp2Sqr a) := fp2Mul_reduced _ _
theorem fp2Inv_reduced (a : Fp2) : Reduced2 (fp2Inv a) := ⟨fpMul_lt _ _, fpMul_lt _ _⟩
theorem fp2Neg_reduced (a : Fp2) : Reduced2 (fp2Neg a) := ⟨fpNeg_lt _, fpNeg_lt _⟩
theorem fp2Div_reduced (a b : Fp2) : Reduced2 (fp2Div a b) := fp2Mul_reduced _ _
theorem fp2Half_reduced (a : Fp2) : Reduced2 (fp2Half a) := ⟨fpHalf_lt _, fpHalf_lt _⟩
theorem k2_reduced (n : Nat) : Reduced2 (k2 n) := ⟨red_lt _, p_pos⟩

theorem reduced2_mk {a b : Nat} (ha : a < p) (hb : b < p) : Reduced2 ⟨a, b⟩ := ⟨ha, hb⟩

theorem reduced2_ite {c : Prop} [Decidable c] {a b : Fp2} (ha : Reduced2 a) (hb : Reduced2 b) :
    Reduced2 (if c then a else b) := by
  split
  · exact ha
  · exact hb

theorem fp2SqrtBranch_reduced (x : Fp2) : Reduced2 (fp2SqrtBranch x) := by
  unfold fp2SqrtBranch
  extract_lets alpha t0 t1 t2
  have h1 : t1 < p := fpPow_lt _ _
  have h2 : t2 < p := fpHalf_lt _
  clear_value t1 t2
  exact reduced2_ite (reduced2_mk h1 h2) (reduced2_mk h2 (fpNeg_lt _))

theorem fp2Sqrt_reduced (x : Fp2) : Reduced2 (fp2Sqrt x) :=
  reduced2_ite (reduced2_mk p_pos (fpSqrt_lt _)) (reduced2_ite (fp2SqrtBranch_reduced _) (fp2Neg_reduced _))

/-! ### Points and curves -/

theorem inf_reduced : ReducedPoint inf := ⟨⟨by decide, by decide⟩, ⟨by decide, by decide⟩⟩

theorem ptNeg_reduced {P : Point} (hP : ReducedPoint P) : ReducedPoint (ptNeg P) := ⟨hP.1, fp2Neg_reduced _⟩

theorem linePoint_reduced (E : Curve) (lam : Fp2) (P : Point) (x2 : Fp2) : ReducedPoint (linePoint E lam P x2) :=
  ⟨fp2Sub_reduced _ _, fp2Sub_reduced _ _⟩

theorem xdbl_reduced (E : Curve) (P : Point) : ReducedPoint (xdbl E P) := by
  unfold xdbl
  split
  · exact inf_reduced
  · split
    · exact inf_reduced
    · exact linePoint_reduced _ _ _ _

theorem xadd_reduced (E : Curve) {P Q : Point} (hP : ReducedPoint P) (hQ : ReducedPoint Q) :
    ReducedPoint (xadd E P Q) := by
  unfold xadd
  split_ifs
  · exact hQ
  · exact hP
  · exact xdbl_reduced _ _
  · exact inf_reduced
  · exact linePoint_reduced _ _ _ _

theorem xtpl_reduced (E : Curve) {P : Point} (hP : ReducedPoint P) : ReducedPoint (xtpl E P) :=
  xadd_reduced E hP (xdbl_reduced E P)

theorem xdble_reduced (E : Curve) {P : Point} (hP : ReducedPoint P) (n : Nat) : ReducedPoint (xdble E P n) := by
  induction n generalizing P with
  | zero => exact hP
  | succ n ih => exact ih (xdbl_reduced E P)

theorem xtple_reduced (E : Curve) {P : Point} (hP : ReducedPoint P) (n : Nat) : ReducedPoint (xtple E P n) := by
  induction n generalizing P with
  | zero => exact hP
  | succ n ih => exact ih (xtpl_reduced E hP)

theorem ladderLoop_reduced (E : Curve) {P : Point} (hP : ReducedPoint P) (k n : Nat) {R : Point}
    (hR : ReducedPoint R) : ReducedPoint (ladderLoop E P k n R) := by
  induction n generalizing R with
  | zero => exact hR
  | succ n ih =>
    unfold ladderLoop
    apply ih
    split
    · exact xadd_reduced E (xdbl_reduced E R) hP
    · exact xdbl_reduced E R

theorem ladder_reduced (E : Curve) {P : Point} (hP : ReducedPoint P) (k msb : Nat) :
    ReducedPoint (ladder E P k msb) := ladderLoop_reduced E hP k msb inf_reduced

theorem jinv_reduced (E : Curve) : Reduced2 (jinv E) := fp2Div_reduced _ _

/-! ### Isogenies and walks -/

theorem curve2iso_reduced (K : Point) (E : Curve) : ReducedCurve (curve2iso K E) :=
  ⟨fp2Mul_reduced _ _, fp2Mul_reduced _ _⟩
theorem curve3iso_reduced (K : Point) (E : Curve) : ReducedCurve (curve3iso K E) :=
  ⟨fp2Mul_reduced _ _, fp2Mul_reduced _ _⟩
theorem curve4iso_reduced (K : Point) (E : Curve) : ReducedCurve (curve4iso K E) :=
  ⟨fp2Sub_reduced _ _, fp2Neg_reduced _⟩

theorem eval2iso_reduced (K P : Point) : ReducedPoint (eval2iso K P) := by
  unfold eval2iso
  dsimp only
  split_ifs
  · exact inf_reduced
  · exact inf_reduced
  · exact ⟨fp2Div_reduced _ _, fp2Mul_reduced _ _⟩

theorem eval3iso_reduced (K P : Point) : ReducedPoint (eval3iso K P) := by
  unfold eval3iso
  dsimp only
  split_ifs
  · exact inf_reduced
  · exact inf_reduced
  · exact ⟨fp2Div_reduced _ _, fp2Mul_reduced _ _⟩

theorem eval4iso_reduced (K P : Point) : ReducedPoint (eval4iso K P) := by
  unfold eval4iso
  dsimp only
  split_ifs
  · exact inf_reduced
  · exact inf_reduced
  · exact ⟨fp2Div_reduced _ _, fp2Mul_reduced _ _⟩

/-- Everything a walk carries is reduced. -/
def ReducedWalk (v : Walk) : Prop :=
  ReducedCurve v.E ∧ ReducedPoint v.S ∧ (∀ P, v.A1 = some P → ReducedPoint P) ∧ (∀ P, v.A2 = some P → ReducedPoint P)

theorem walkStep_reduced {curveMap : Point → Curve → Curve} {pointMap : Point → Point → Point}
    (hc : ∀ T E, ReducedCurve (curveMap T E)) (hp : ∀ T P, ReducedPoint (pointMap T P)) (T : Point) (v : Walk) :
    ReducedWalk (walkStep curveMap pointMap T v) := by
  refine ⟨hc _ _, hp _ _, ?_, ?_⟩
  · intro P h
    obtain ⟨Q, -, rfl⟩ := Option.map_eq_some_iff.mp h
    exact hp _ _
  · intro P h
    obtain ⟨Q, -, rfl⟩ := Option.map_eq_some_iff.mp h
    exact hp _ _

theorem walk4_reduced (n : Nat) {v : Walk} (hv : ReducedWalk v) : ReducedWalk (walk4 n v) := by
  induction n generalizing v with
  | zero => exact hv
  | succ n ih => exact ih (walkStep_reduced curve4iso_reduced eval4iso_reduced _ _)

theorem iso2e_reduced (e : Nat) {v : Walk} (hv : ReducedWalk v) : ReducedWalk (iso2e e v) := by
  unfold iso2e
  split
  · exact walk4_reduced _ (walkStep_reduced curve2iso_reduced eval2iso_reduced _ _)
  · exact walk4_reduced _ hv

theorem iso3e_reduced (e : Nat) {v : Walk} (hv : ReducedWalk v) : ReducedWalk (iso3e e v) := by
  induction e generalizing v with
  | zero => exact hv
  | succ n ih => exact ih (walkStep_reduced curve3iso_reduced eval3iso_reduced _ _)

/-- A walk carries an auxiliary point at its end exactly if it did at its start. -/
theorem walk4_aux (n : Nat) (v : Walk) :
    (walk4 n v).A1.isSome = v.A1.isSome ∧ (walk4 n v).A2.isSome = v.A2.isSome := by
  induction n generalizing v with
  | zero => exact ⟨rfl, rfl⟩
  | succ n ih =>
    have h := ih (walkStep curve4iso eval4iso (xdble v.E v.S (2 * n)) v)
    simpa only [walk4, walkStep, Option.isSome_map] using h

theorem iso2e_aux (e : Nat) (v : Walk) :
    (iso2e e v).A1.isSome = v.A1.isSome ∧ (iso2e e v).A2.isSome = v.A2.isSome := by
  unfold iso2e
  split
  · have h := walk4_aux (e / 2) (walkStep curve2iso eval2iso (xdble v.E v.S (e - 1)) v)
    simpa [walkStep] using h
  · exact walk4_aux _ v

theorem iso3e_aux (e : Nat) (v : Walk) :
    (iso3e e v).A1.isSome = v.A1.isSome ∧ (iso3e e v).A2.isSome = v.A2.isSome := by
  induction e generalizing v with
  | zero => exact ⟨rfl, rfl⟩
  | succ n ih =>
    have h := ih (walkStep curve3iso eval3iso (xtple v.E v.S n) v)
    simpa only [iso3e, walkStep, Option.isSome_map] using h

/-! ### Protocol -/

theorem reduced_one : Reduced2 ⟨1, 0⟩ := ⟨by decide, p_pos⟩

theorem recover_reduced {k : PublicKey} (hP : Reduced2 k.xP) (hQ : Reduced2 k.xQ) :
    ReducedCurve (recover k).E ∧ ReducedPoint (recover k).P ∧ ReducedPoint (recover k).Q := by
  unfold recover
  extract_lets E P Q
  have hE : ReducedCurve E := ⟨fp2Sub_reduced _ _, reduced_one⟩
  have hP' : ReducedPoint P := ⟨hP, fp2Sqrt_reduced _⟩
  have hQ' : ReducedPoint Q := ⟨hQ, fp2Sqrt_reduced _⟩
  split
  · exact ⟨hE, hP', hQ'⟩
  · exact ⟨hE, hP', ptNeg_reduced hQ'⟩

/-! ### Reduced pairs fit a register -/

theorem lt_word_of_lt_p {v : Nat} (h : v < p) : v < 2 ^ 32 := lt_trans h p_lt_word

end Sys2Proof.Machine
end

