-- ==== Sys2Proof/Laws/Encoding.lean ====
section
/-! SUPPORT. Splitting a command word into fields and joining fields into a word undo each other, and so do the two ways
of splitting the immediate. -/

namespace Sys2Proof

theorem split_join (x : Fields) : splitFields (joinFields x) = x := by
  obtain ⟨op, rd, ra, rb, imm8⟩ := x
  simp only [splitFields, joinFields, Fields.mk.injEq]
  refine ⟨?_, ?_, ?_, ?_, ?_⟩ <;>
    (apply BitVec.eq_of_getLsbD_eq; intro k hk; simp [BitVec.getLsbD_extractLsb']; grind)

theorem join_split (c : Word) : joinFields (splitFields c) = c := by
  apply BitVec.eq_of_getLsbD_eq
  intro k hk
  simp [splitFields, joinFields]
  grind

theorem ladderScalar_imm (ws : BitVec 3) (msb : BitVec 5) : ladderScalar (ladderImm ws msb) = ws := by
  revert ws msb; decide

theorem ladderWidth_imm (ws : BitVec 3) (msb : BitVec 5) : ladderWidth (ladderImm ws msb) = msb := by
  revert ws msb; decide

theorem ladderImm_split (imm8 : BitVec 8) : ladderImm (ladderScalar imm8) (ladderWidth imm8) = imm8 := by
  revert imm8; decide

theorem walkA2_imm (a2 a1 : Bool) (e : BitVec 6) : walkA2 (walkImm a2 a1 e) = a2 := by
  revert a2 a1 e; decide

theorem walkA1_imm (a2 a1 : Bool) (e : BitVec 6) : walkA1 (walkImm a2 a1 e) = a1 := by
  revert a2 a1 e; decide

theorem walkLength_imm (a2 a1 : Bool) (e : BitVec 6) : walkLength (walkImm a2 a1 e) = e := by
  revert a2 a1 e; decide

theorem walkImm_split (imm8 : BitVec 8) : walkImm (walkA2 imm8) (walkA1 imm8) (walkLength imm8) = imm8 := by
  revert imm8; decide

/-- The mask of a row acts field by field. -/
theorem joinFields_and (x m : Fields) :
    joinFields x &&& joinFields m =
      joinFields ⟨x.op &&& m.op, x.rd &&& m.rd, x.ra &&& m.ra, x.rb &&& m.rb, x.imm8 &&& m.imm8⟩ := by
  simp only [joinFields]
  erw [BitVec.and_append, BitVec.and_append, BitVec.and_append, BitVec.and_append]

end Sys2Proof
end

