-- ==== Sys2Proof/Laws/Registers.lean ====
section
/-! SUPPORT. Reading after writing, for the register files and for every view of `f`: what a write leaves where it wrote,
and that it leaves every other word alone. -/

namespace Sys2Proof.Machine

/-! ### Single words -/

theorem State.fWord_writeF (s : State) (i j : Nat) (v : Nat) (hj : j < 64) :
    (s.writeF i v).fWord j = if i = j then BitVec.ofNat 32 v else s.fWord j := by
  simp only [State.fWord, State.writeF, hj, dite_true, Vector.getElem_setIfInBounds]

theorem State.fWord_writeF_ne (s : State) {i j : Nat} (v : Nat) (h : i ≠ j) :
    (s.writeF i v).fWord j = s.fWord j := by
  by_cases hj : j < 64
  · rw [State.fWord_writeF _ _ _ _ hj, if_neg h]
  · simp [State.fWord, hj]

theorem State.readF_writeF_same (s : State) {i : Nat} {v : Nat} (hi : i < 64) (hv : v < 2 ^ 32) :
    (s.writeF i v).readF i = v := by
  simp only [State.readF, State.fWord_writeF _ _ _ _ hi, if_true, BitVec.toNat_ofNat, Nat.mod_eq_of_lt hv]

theorem State.readF_writeF_ne (s : State) {i j : Nat} (v : Nat) (h : i ≠ j) :
    (s.writeF i v).readF j = s.readF j := by
  simp only [State.readF, State.fWord_writeF_ne s v h]

theorem State.readF_lt (s : State) (i : Nat) : s.readF i < 2 ^ 32 := (s.fWord i).isLt

theorem State.wWord_writeW (s : State) (i j : Nat) (v : Word) (hj : j < 8) :
    (s.writeW i v).wWord j = if i = j then v else s.wWord j := by
  simp only [State.wWord, State.writeW, hj, dite_true, Vector.getElem_setIfInBounds]

theorem State.prmWord_writePrm (s : State) (i j : Nat) (v : Nat) (hj : j < 20) :
    (s.writePrm i v).prmWord j = if i = j then BitVec.ofNat 32 v else s.prmWord j := by
  simp only [State.prmWord, State.writePrm, hj, dite_true, Vector.getElem_setIfInBounds]

/-! ### Words outside a view are left alone -/

theorem State.fWord_writeZ_outside (s : State) {r j : Nat} (v : Fp2) (h : ¬ Words r 2 j) :
    (s.writeZ r v).fWord j = s.fWord j := by
  unfold Words at h
  rw [State.writeZ, State.fWord_writeF_ne _ _ (by omega), State.fWord_writeF_ne _ _ (by omega)]

theorem State.fWord_writePoint_outside (s : State) {r j : Nat} (P : Point) (h : ¬ Words r 4 j) :
    (s.writePoint r P).fWord j = s.fWord j := by
  unfold Words at h
  rw [State.writePoint, State.fWord_writeZ_outside _ _ (by unfold Words; omega),
    State.fWord_writeZ_outside _ _ (by unfold Words; omega)]

theorem State.fWord_writeCurve_outside (s : State) {r j : Nat} (E : Curve) (h : ¬ Words r 4 j) :
    (s.writeCurve r E).fWord j = s.fWord j := by
  unfold Words at h
  rw [State.writeCurve, State.fWord_writeZ_outside _ _ (by unfold Words; omega),
    State.fWord_writeZ_outside _ _ (by unfold Words; omega)]

theorem State.fWord_writePk_outside (s : State) {r j : Nat} (k : PublicKey) (h : ¬ Words r 6 j) :
    (s.writePk r k).fWord j = s.fWord j := by
  unfold Words at h
  rw [State.writePk, State.fWord_writeZ_outside _ _ (by unfold Words; omega),
    State.fWord_writeZ_outside _ _ (by unfold Words; omega), State.fWord_writeZ_outside _ _ (by unfold Words; omega)]

theorem State.fWord_writeT3_outside (s : State) {r j : Nat} (E : Curve) (P Q : Point) (h : ¬ Words r 12 j) :
    (s.writeT3 r E P Q).fWord j = s.fWord j := by
  unfold Words at h
  rw [State.writeT3, State.fWord_writePoint_outside _ _ (by unfold Words; omega),
    State.fWord_writePoint_outside _ _ (by unfold Words; omega),
    State.fWord_writeCurve_outside _ _ (by unfold Words; omega)]

theorem State.fWord_writePointIf_outside (s : State) {r j : Nat} (P : Option Point)
    (h : P.isSome → ¬ Words r 4 j) : (s.writePointIf r P).fWord j = s.fWord j := by
  cases P with
  | none => rfl
  | some P => exact State.fWord_writePoint_outside s P (h rfl)

/-! ### Reading a view -/

theorem State.readZ_congr {s t : State} {r : Nat}
    (h0 : t.fWord r = s.fWord r) (h1 : t.fWord (r + 1) = s.fWord (r + 1)) : t.readZ r = s.readZ r := by
  simp only [State.readZ, State.readF, h0, h1]

theorem State.readZ_congr_of_outside {s t : State} {d : Nat → Prop} (h : ∀ j, ¬ d j → t.fWord j = s.fWord j)
    {r : Nat} (h0 : ¬ d r) (h1 : ¬ d (r + 1)) : t.readZ r = s.readZ r :=
  State.readZ_congr (h _ h0) (h _ h1)

/-- Both components of a pair fit a register word. -/
def Fits (v : Fp2) : Prop := v.x0 < 2 ^ 32 ∧ v.x1 < 2 ^ 32

theorem State.readZ_fits (s : State) (r : Nat) : Fits (s.readZ r) := ⟨s.readF_lt r, s.readF_lt (r + 1)⟩

theorem State.readZ_writeZ_same (s : State) {r : Nat} {v : Fp2} (hr : r + 1 < 64) (hv : Fits v) :
    (s.writeZ r v).readZ r = v := by
  have h0 : (s.writeZ r v).readF r = v.x0 := by
    rw [State.writeZ, State.readF_writeF_ne _ _ (by omega), State.readF_writeF_same _ (by omega) hv.1]
  have h1 : (s.writeZ r v).readF (r + 1) = v.x1 := by
    rw [State.writeZ, State.readF_writeF_same _ hr hv.2]
  simp only [State.readZ, h0, h1]

theorem State.readZ_writeZ_apart (s : State) {r k : Nat} (v : Fp2) (h : k + 2 ≤ r ∨ r + 2 ≤ k) :
    (s.writeZ r v).readZ k = s.readZ k :=
  State.readZ_congr (State.fWord_writeZ_outside _ _ (by unfold Words; omega))
    (State.fWord_writeZ_outside _ _ (by unfold Words; omega))

theorem State.readPoint_writePoint_same (s : State) {r : Nat} {P : Point} (hr : r + 3 < 64)
    (hx : Fits P.x) (hy : Fits P.y) : (s.writePoint r P).readPoint r = P := by
  simp only [State.readPoint, State.writePoint]
  rw [State.readZ_writeZ_apart _ _ (by omega), State.readZ_writeZ_same _ (by omega) hx,
    State.readZ_writeZ_same _ (by omega) hy]

theorem State.readCurve_writeCurve_same (s : State) {r : Nat} {E : Curve} (hr : r + 3 < 64)
    (ha : Fits E.a) (hb : Fits E.b) : (s.writeCurve r E).readCurve r = E := by
  simp only [State.readCurve, State.writeCurve]
  rw [State.readZ_writeZ_apart _ _ (by omega), State.readZ_writeZ_same _ (by omega) ha,
    State.readZ_writeZ_same _ (by omega) hb]

theorem State.readPk_writePk_same (s : State) {r : Nat} {k : PublicKey} (hr : r + 5 < 64)
    (hP : Fits k.xP) (hQ : Fits k.xQ) (hR : Fits k.xR) : (s.writePk r k).readPk r = k := by
  simp only [State.readPk, State.writePk]
  rw [State.readZ_writeZ_apart _ _ (by omega), State.readZ_writeZ_apart _ _ (by omega),
    State.readZ_writeZ_same _ (by omega) hP, State.readZ_writeZ_apart _ _ (by omega),
    State.readZ_writeZ_same _ (by omega) hQ, State.readZ_writeZ_same _ (by omega) hR]

theorem State.readPoint_congr {s t : State} {r : Nat} (h : ∀ j, Words r 4 j → t.fWord j = s.fWord j) :
    t.readPoint r = s.readPoint r := by
  unfold Words at h
  simp only [State.readPoint, State.readZ, State.readF]
  rw [h r (by omega), h (r + 1) (by omega), h (r + 2) (by omega), h (r + 2 + 1) (by omega)]

theorem State.readCurve_congr {s t : State} {r : Nat} (h : ∀ j, Words r 4 j → t.fWord j = s.fWord j) :
    t.readCurve r = s.readCurve r := by
  unfold Words at h
  simp only [State.readCurve, State.readZ, State.readF]
  rw [h r (by omega), h (r + 1) (by omega), h (r + 2) (by omega), h (r + 2 + 1) (by omega)]

end Sys2Proof.Machine
end

