-- ==== Sys2Proof/Laws/Frames.lean ====
section
/-! SUPPORT. From the state a command computes to what it yields: one lemma per view, result and frame together. -/

namespace Sys2Proof.Machine

theorem SameStatus.refl (s : State) : SameStatus s s := ⟨rfl, rfl, rfl, rfl⟩
theorem SameHost.refl (s : State) : SameHost s s := ⟨rfl, rfl, rfl⟩

theorem Fits.of_reduced {v : Fp2} (h : Reduced2 v) : Fits v := ⟨lt_word_of_lt_p h.1, lt_word_of_lt_p h.2⟩

/-! ### What each write leaves -/

theorem sameButF_writeF (s : State) (r : Nat) (v : Nat) : SameButF s (s.writeF r v) (Words r 1) :=
  ⟨fun _ _ h => State.fWord_writeF_ne s v (by unfold Words at h; omega), rfl, rfl, SameStatus.refl _, SameHost.refl _⟩

theorem sameButF_writeZ (s : State) (r : Nat) (v : Fp2) : SameButF s (s.writeZ r v) (Words r 2) :=
  ⟨fun _ _ h => State.fWord_writeZ_outside s v h, by simp, by simp, ⟨by simp, by simp, by simp, by simp⟩,
    ⟨by simp, by simp, by simp⟩⟩

theorem sameButF_writePoint (s : State) (r : Nat) (P : Point) : SameButF s (s.writePoint r P) (Words r 4) :=
  ⟨fun _ _ h => State.fWord_writePoint_outside s P h, by simp, by simp, ⟨by simp, by simp, by simp, by simp⟩,
    ⟨by simp, by simp, by simp⟩⟩

theorem sameButF_writeCurve (s : State) (r : Nat) (E : Curve) : SameButF s (s.writeCurve r E) (Words r 4) :=
  ⟨fun _ _ h => State.fWord_writeCurve_outside s E h, by simp, by simp, ⟨by simp, by simp, by simp, by simp⟩,
    ⟨by simp, by simp, by simp⟩⟩

theorem sameButF_writePk (s : State) (r : Nat) (k : PublicKey) : SameButF s (s.writePk r k) (Words r 6) :=
  ⟨fun _ _ h => State.fWord_writePk_outside s k h, by simp, by simp, ⟨by simp, by simp, by simp, by simp⟩,
    ⟨by simp, by simp, by simp⟩⟩

theorem sameButF_writeT3 (s : State) (r : Nat) (E : Curve) (P Q : Point) :
    SameButF s (s.writeT3 r E P Q) (Words r 12) :=
  ⟨fun _ _ h => State.fWord_writeT3_outside s E P Q h, by simp, by simp, ⟨by simp, by simp, by simp, by simp⟩,
    ⟨by simp, by simp, by simp⟩⟩

theorem sameButW_writeW (s : State) (r : Nat) (v : Word) : SameButW s (s.writeW r v) r :=
  ⟨fun j hj h => by rw [State.wWord_writeW s r j v hj, if_neg (fun e => h e.symm)], rfl, rfl, SameStatus.refl _,
    SameHost.refl _⟩

theorem sameButPrm_writePrm (s : State) (r : Nat) (v : Nat) : SameButPrm s (s.writePrm r v) r :=
  ⟨fun j hj h => by rw [State.prmWord_writePrm s r j v hj, if_neg (fun e => h e.symm)], rfl, rfl, SameStatus.refl _,
    SameHost.refl _⟩

theorem afterFault_faultEntry (s : State) (cause : FaultCause) (c : Word) :
    AfterFault s (s.faultEntry cause c) (faultCode cause) c :=
  ⟨rfl, rfl, rfl, rfl, rfl, rfl, rfl, SameHost.refl _⟩

/-! ### Yields -/

theorem yieldsF_of_exec {i : Instr} {s : State} {r : Nat} {v : Nat} (h : exec i s = .next (s.writeF r v)) (hr : r < 64)
    (hv : v < Config.p) : YieldsF i s r v :=
  ⟨_, h, State.readF_writeF_same s hr (lt_word_of_lt_p hv), sameButF_writeF s r v⟩

theorem yieldsW_of_exec {i : Instr} {s : State} {r : Nat} {v : Word} (h : exec i s = .next (s.writeW r v)) (hr : r < 8) :
    YieldsW i s r v :=
  ⟨_, h, by rw [State.wWord_writeW s r r v hr, if_pos rfl], sameButW_writeW s r v⟩

theorem yieldsZ_of_exec {i : Instr} {s : State} {r : Nat} {v : Fp2} (h : exec i s = .next (s.writeZ r v)) (hr : r + 1 < 64)
    (hv : Reduced2 v) : YieldsZ i s r v :=
  ⟨_, h, State.readZ_writeZ_same s hr (Fits.of_reduced hv), sameButF_writeZ s r v⟩

theorem yieldsPoint_of_exec {i : Instr} {s : State} {r : Nat} {P : Point} (h : exec i s = .next (s.writePoint r P))
    (hr : r + 3 < 64) (hP : ReducedPoint P) : YieldsPoint i s r P :=
  ⟨_, h, State.readPoint_writePoint_same s hr (Fits.of_reduced hP.1) (Fits.of_reduced hP.2), sameButF_writePoint s r P⟩

theorem yieldsCurve_of_exec {i : Instr} {s : State} {r : Nat} {E : Curve} (h : exec i s = .next (s.writeCurve r E))
    (hr : r + 3 < 64) (hE : ReducedCurve E) : YieldsCurve i s r E :=
  ⟨_, h, State.readCurve_writeCurve_same s hr (Fits.of_reduced hE.1) (Fits.of_reduced hE.2), sameButF_writeCurve s r E⟩

theorem yieldsPk_of_exec {i : Instr} {s : State} {r : Nat} {k : PublicKey} (h : exec i s = .next (s.writePk r k))
    (hr : r + 5 < 64) (hP : Reduced2 k.xP) (hQ : Reduced2 k.xQ) (hR : Reduced2 k.xR) : YieldsPk i s r k :=
  ⟨_, h, State.readPk_writePk_same s hr (Fits.of_reduced hP) (Fits.of_reduced hQ) (Fits.of_reduced hR),
    sameButF_writePk s r k⟩

/-! ### Reads of a reduced state -/

theorem State.Reduced.readF {s : State} (h : s.Reduced) (i : Nat) : s.readF i < Config.p := by
  by_cases hi : i < 64
  · exact h.1 i hi
  · simp only [State.readF, State.fWord, hi, dite_false]
    exact p_pos

theorem State.Reduced.readPrm {s : State} (h : s.Reduced) (i : Nat) : s.readPrm i < Config.p := by
  by_cases hi : i < 20
  · exact h.2 i hi
  · simp only [State.readPrm, State.prmWord, hi, dite_false]
    exact p_pos

theorem State.Reduced.readZ {s : State} (h : s.Reduced) (r : Nat) : Reduced2 (s.readZ r) := ⟨h.readF r, h.readF _⟩
theorem State.Reduced.readPoint {s : State} (h : s.Reduced) (r : Nat) : ReducedPoint (s.readPoint r) :=
  ⟨h.readZ r, h.readZ _⟩
theorem State.Reduced.readCurve {s : State} (h : s.Reduced) (r : Nat) : ReducedCurve (s.readCurve r) :=
  ⟨h.readZ r, h.readZ _⟩
theorem State.Reduced.prmPair {s : State} (h : s.Reduced) (i : Nat) : Reduced2 (s.prmPair i) :=
  ⟨h.readPrm i, h.readPrm _⟩
theorem State.Reduced.prmPoint {s : State} (h : s.Reduced) (i : Nat) : ReducedPoint (s.prmPoint i) :=
  ⟨h.prmPair i, h.prmPair _⟩

/-! ### Writes of canonical representatives keep a state reduced -/

theorem State.Reduced.writeF {s : State} (h : s.Reduced) (r : Nat) {v : Nat} (hv : v < Config.p) : (s.writeF r v).Reduced := by
  refine ⟨fun j hj => ?_, h.2⟩
  rw [State.fWord_writeF s r j v hj]
  split
  · rw [BitVec.toNat_ofNat, Nat.mod_eq_of_lt (lt_word_of_lt_p hv)]
    exact hv
  · exact h.1 j hj

theorem State.Reduced.writePrm {s : State} (h : s.Reduced) (r : Nat) {v : Nat} (hv : v < Config.p) :
    (s.writePrm r v).Reduced := by
  refine ⟨h.1, fun j hj => ?_⟩
  rw [State.prmWord_writePrm s r j v hj]
  split
  · rw [BitVec.toNat_ofNat, Nat.mod_eq_of_lt (lt_word_of_lt_p hv)]
    exact hv
  · exact h.2 j hj

theorem State.Reduced.writeZ {s : State} (h : s.Reduced) (r : Nat) {v : Fp2} (hv : Reduced2 v) : (s.writeZ r v).Reduced :=
  (h.writeF r hv.1).writeF _ hv.2

theorem State.Reduced.writePoint {s : State} (h : s.Reduced) (r : Nat) {P : Point} (hP : ReducedPoint P) :
    (s.writePoint r P).Reduced := (h.writeZ r hP.1).writeZ _ hP.2

theorem State.Reduced.writeCurve {s : State} (h : s.Reduced) (r : Nat) {E : Curve} (hE : ReducedCurve E) :
    (s.writeCurve r E).Reduced := (h.writeZ r hE.1).writeZ _ hE.2

theorem State.Reduced.writePk {s : State} (h : s.Reduced) (r : Nat) {k : PublicKey} (hP : Reduced2 k.xP)
    (hQ : Reduced2 k.xQ) (hR : Reduced2 k.xR) : (s.writePk r k).Reduced :=
  ((h.writeZ r hP).writeZ _ hQ).writeZ _ hR

theorem State.Reduced.writeT3 {s : State} (h : s.Reduced) (r : Nat) {E : Curve} {P Q : Point} (hE : ReducedCurve E)
    (hP : ReducedPoint P) (hQ : ReducedPoint Q) : (s.writeT3 r E P Q).Reduced :=
  ((h.writeCurve r hE).writePoint _ hP).writePoint _ hQ

theorem State.Reduced.writePointIf {s : State} (h : s.Reduced) (r : Nat) {P : Option Point}
    (hP : ∀ R, P = some R → ReducedPoint R) : (s.writePointIf r P).Reduced := by
  cases P with
  | none => exact h
  | some P => exact h.writePoint r (hP P rfl)

theorem State.Reduced.writeWalk {s : State} (h : s.Reduced) (qc qs qa : QReg) {v : Walk} (hv : ReducedWalk v) :
    (s.writeWalk qc qs qa v).Reduced :=
  (((h.writeCurve _ hv.1).writePoint _ hv.2.1).writePointIf _ hv.2.2.1).writePointIf _ hv.2.2.2

/-- The operands a walk command reads are reduced in a reduced state. -/
theorem State.Reduced.readWalk {s : State} (h : s.Reduced) (qc qs qa : QReg) (a2 a1 : Bool) :
    ReducedWalk (s.readWalk qc qs qa a2 a1) := by
  refine ⟨h.readCurve _, h.readPoint _, fun P hP => ?_, fun P hP => ?_⟩
  · cases a1 <;> simp only [State.readWalk, if_true, Bool.false_eq_true, if_false, reduceCtorEq, Option.some.injEq] at hP
    exact hP ▸ h.readPoint _
  · cases a2 <;> simp only [State.readWalk, if_true, Bool.false_eq_true, if_false, reduceCtorEq, Option.some.injEq] at hP
    exact hP ▸ h.readPoint _

/-! ### Legal register numbers -/

theorem legalZ_bound {v : ZReg} (h : legalZ v = true) : v.toNat + 1 < 64 := by
  have := v.isLt
  simp only [legalZ, beq_iff_eq] at h
  omega

theorem legalQ_bound {v : QReg} (h : legalQ v = true) : v.toNat + 3 < 64 := by
  have := v.isLt
  simp only [legalQ, beq_iff_eq] at h
  omega

theorem legalPK_bound {v : PkReg} (h : legalPK v = true) : v.toNat + 5 < 64 := by
  simp only [legalPK, Bool.and_eq_true, beq_iff_eq, decide_eq_true_eq] at h
  omega

theorem legalT3_bound {v : T3Reg} (h : legalT3 v = true) : v.toNat + 11 < 64 := by
  simp only [legalT3, Bool.and_eq_true, beq_iff_eq, decide_eq_true_eq] at h
  omega

theorem legalW_bound {v : WReg} (h : legalW v = true) : v.toNat < 8 := by simpa [legalW] using h

theorem legalS_bound {v : Slot} (h : legalS v = true) : v.toNat < 20 := by simpa [legalS] using h

end Sys2Proof.Machine
end

