-- ==== Sys2Proof/Laws/PerInstr.lean ====
section
/-! SUPPORT. Per-constructor facts about instructions as syntax: each one's word selects its own row of the opcode table
(rule R86). -/

namespace Sys2Proof.Laws.EncodeSelectsRow

/-- The table has a row of the instruction's mnemonic, and that row selects the instruction's word. -/
def Statement (i : Instr) : Prop :=
  ∃ row ∈ opcodeRows, row.1 = mnemonic i ∧ rowSelects row (encode i) = true

/-- A row given by its fields selects a word whose fields, masked one by one, are the row's. -/
theorem rowSelects_fields {name : String} {pat mask : Word} {x y m : Fields} (hm : mask = joinFields m)
    (hp : pat = joinFields y)
    (h : (⟨x.op &&& m.op, x.rd &&& m.rd, x.ra &&& m.ra, x.rb &&& m.rb, x.imm8 &&& m.imm8⟩ : Fields) = y) :
    rowSelects (name, pat, mask) (joinFields x) = true := by
  subst hm hp h
  simp only [rowSelects, joinFields_and, beq_self_eq_true]


theorem prmConst (slot : Slot) (ws : WReg) : Statement (.prmConst slot ws) :=
  ⟨("PRM_CONST", 0x04000000, 0xfc003fff), by simp [opcodeRows, opcodeRowsSetup], rfl,
    rowSelects_fields (m := ⟨0x3f, 0x0, 0x0, 0x3f, 0xff⟩) (y := ⟨0x1, 0, 0, 0, 0⟩)
      (by decide) (by decide) (by simp [instrFields])⟩

theorem plock : Statement (.plock) :=
  ⟨("PLOCK", 0x08000000, 0xffffffff), by simp [opcodeRows, opcodeRowsSetup], rfl,
    rowSelects_fields (m := ⟨0x3f, 0x3f, 0x3f, 0x3f, 0xff⟩) (y := ⟨0x2, 0, 0, 0, 0⟩)
      (by decide) (by decide) (by simp [instrFields])⟩

theorem fpConst (fd : FReg) (ws : WReg) : Statement (.fpConst fd ws) :=
  ⟨("FP_CONST", 0x20000000, 0xfc003fff), by simp [opcodeRows, opcodeRowsFp], rfl,
    rowSelects_fields (m := ⟨0x3f, 0x0, 0x0, 0x3f, 0xff⟩) (y := ⟨0x8, 0, 0, 0, 0⟩)
      (by decide) (by decide) (by simp [instrFields])⟩

theorem fpAdd (fd fa fb : FReg) : Statement (.fpAdd fd fa fb) :=
  ⟨("FP_ADD", 0x24000000, 0xfc0000ff), by simp [opcodeRows, opcodeRowsFp], rfl,
    rowSelects_fields (m := ⟨0x3f, 0x0, 0x0, 0x0, 0xff⟩) (y := ⟨0x9, 0, 0, 0, 0⟩)
      (by decide) (by decide) (by simp [instrFields])⟩

theorem fpSub (fd fa fb : FReg) : Statement (.fpSub fd fa fb) :=
  ⟨("FP_SUB", 0x28000000, 0xfc0000ff), by simp [opcodeRows, opcodeRowsFp], rfl,
    rowSelects_fields (m := ⟨0x3f, 0x0, 0x0, 0x0, 0xff⟩) (y := ⟨0xa, 0, 0, 0, 0⟩)
      (by decide) (by decide) (by simp [instrFields])⟩

theorem fpMul (fd fa fb : FReg) : Statement (.fpMul fd fa fb) :=
  ⟨("FP_MUL", 0x2c000000, 0xfc0000ff), by simp [opcodeRows, opcodeRowsFp], rfl,
    rowSelects_fields (m := ⟨0x3f, 0x0, 0x0, 0x0, 0xff⟩) (y := ⟨0xb, 0, 0, 0, 0⟩)
      (by decide) (by decide) (by simp [instrFields])⟩

theorem fpNeg (fd fa : FReg) : Statement (.fpNeg fd fa) :=
  ⟨("FP_NEG", 0x30000000, 0xfc003fff), by simp [opcodeRows, opcodeRowsFp], rfl,
    rowSelects_fields (m := ⟨0x3f, 0x0, 0x0, 0x3f, 0xff⟩) (y := ⟨0xc, 0, 0, 0, 0⟩)
      (by decide) (by decide) (by simp [instrFields])⟩

theorem fpSqr (fd fa : FReg) : Statement (.fpSqr fd fa) :=
  ⟨("FP_SQR", 0x34000000, 0xfc003fff), by simp [opcodeRows, opcodeRowsFp], rfl,
    rowSelects_fields (m := ⟨0x3f, 0x0, 0x0, 0x3f, 0xff⟩) (y := ⟨0xd, 0, 0, 0, 0⟩)
      (by decide) (by decide) (by simp [instrFields])⟩

theorem fpInv (fd fa : FReg) : Statement (.fpInv fd fa) :=
  ⟨("FP_INV", 0x38000000, 0xfc003fff), by simp [opcodeRows, opcodeRowsFp], rfl,
    rowSelects_fields (m := ⟨0x3f, 0x0, 0x0, 0x3f, 0xff⟩) (y := ⟨0xe, 0, 0, 0, 0⟩)
      (by decide) (by decide) (by simp [instrFields])⟩

theorem fpPow (fd fa : FReg) (ws : WReg) : Statement (.fpPow fd fa ws) :=
  ⟨("FP_POW", 0x3c000000, 0xfc0000ff), by simp [opcodeRows, opcodeRowsFp], rfl,
    rowSelects_fields (m := ⟨0x3f, 0x0, 0x0, 0x0, 0xff⟩) (y := ⟨0xf, 0, 0, 0, 0⟩)
      (by decide) (by decide) (by simp [instrFields])⟩

theorem fpSqrt (fd fa : FReg) : Statement (.fpSqrt fd fa) :=
  ⟨("FP_SQRT", 0x40000000, 0xfc003fff), by simp [opcodeRows, opcodeRowsFp], rfl,
    rowSelects_fields (m := ⟨0x3f, 0x0, 0x0, 0x3f, 0xff⟩) (y := ⟨0x10, 0, 0, 0, 0⟩)
      (by decide) (by decide) (by simp [instrFields])⟩

theorem fpEq (wd : WReg) (fa fb : FReg) : Statement (.fpEq wd fa fb) :=
  ⟨("FP_EQ", 0x44000000, 0xfc0000ff), by simp [opcodeRows, opcodeRowsFp], rfl,
    rowSelects_fields (m := ⟨0x3f, 0x0, 0x0, 0x0, 0xff⟩) (y := ⟨0x11, 0, 0, 0, 0⟩)
      (by decide) (by decide) (by simp [instrFields])⟩

theorem fpIseven (wd : WReg) (fa : FReg) : Statement (.fpIseven wd fa) :=
  ⟨("FP_ISEVEN", 0x48000000, 0xfc003fff), by simp [opcodeRows, opcodeRowsFp], rfl,
    rowSelects_fields (m := ⟨0x3f, 0x0, 0x0, 0x3f, 0xff⟩) (y := ⟨0x12, 0, 0, 0, 0⟩)
      (by decide) (by decide) (by simp [instrFields])⟩

theorem fpBit (wd : WReg) (fa : FReg) (bit : BitVec 8) : Statement (.fpBit wd fa bit) :=
  ⟨("FP_BIT", 0x4c000000, 0xfc003f00), by simp [opcodeRows, opcodeRowsFp], rfl,
    rowSelects_fields (m := ⟨0x3f, 0x0, 0x0, 0x3f, 0x0⟩) (y := ⟨0x13, 0, 0, 0, 0⟩)
      (by decide) (by decide) (by simp [instrFields])⟩

theorem fpIsqr (wd : WReg) (fa : FReg) : Statement (.fpIsqr wd fa) :=
  ⟨("FP_ISQR", 0x50000000, 0xfc003fff), by simp [opcodeRows, opcodeRowsFp], rfl,
    rowSelects_fields (m := ⟨0x3f, 0x0, 0x0, 0x3f, 0xff⟩) (y := ⟨0x14, 0, 0, 0, 0⟩)
      (by decide) (by decide) (by simp [instrFields])⟩

theorem fp2Const (zd : ZReg) (ws : WReg) : Statement (.fp2Const zd ws) :=
  ⟨("FP2_CONST", 0x60000000, 0xfc003fff), by simp [opcodeRows, opcodeRowsFp2], rfl,
    rowSelects_fields (m := ⟨0x3f, 0x0, 0x0, 0x3f, 0xff⟩) (y := ⟨0x18, 0, 0, 0, 0⟩)
      (by decide) (by decide) (by simp [instrFields])⟩

theorem fp2Constp (zd : ZReg) (ws wt : WReg) : Statement (.fp2Constp zd ws wt) :=
  ⟨("FP2_CONSTP", 0x64000000, 0xfc0000ff), by simp [opcodeRows, opcodeRowsFp2], rfl,
    rowSelects_fields (m := ⟨0x3f, 0x0, 0x0, 0x0, 0xff⟩) (y := ⟨0x19, 0, 0, 0, 0⟩)
      (by decide) (by decide) (by simp [instrFields])⟩

theorem fp2Add (zd za zb : ZReg) : Statement (.fp2Add zd za zb) :=
  ⟨("FP2_ADD", 0x68000000, 0xfc0000ff), by simp [opcodeRows, opcodeRowsFp2], rfl,
    rowSelects_fields (m := ⟨0x3f, 0x0, 0x0, 0x0, 0xff⟩) (y := ⟨0x1a, 0, 0, 0, 0⟩)
      (by decide) (by decide) (by simp [instrFields])⟩

theorem fp2Sub (zd za zb : ZReg) : Statement (.fp2Sub zd za zb) :=
  ⟨("FP2_SUB", 0x6c000000, 0xfc0000ff), by simp [opcodeRows, opcodeRowsFp2], rfl,
    rowSelects_fields (m := ⟨0x3f, 0x0, 0x0, 0x0, 0xff⟩) (y := ⟨0x1b, 0, 0, 0, 0⟩)
      (by decide) (by decide) (by simp [instrFields])⟩

theorem fp2Mul (zd za zb : ZReg) : Statement (.fp2Mul zd za zb) :=
  ⟨("FP2_MUL", 0x70000000, 0xfc0000ff), by simp [opcodeRows, opcodeRowsFp2], rfl,
    rowSelects_fields (m := ⟨0x3f, 0x0, 0x0, 0x0, 0xff⟩) (y := ⟨0x1c, 0, 0, 0, 0⟩)
      (by decide) (by decide) (by simp [instrFields])⟩

theorem fp2Sqr (zd za : ZReg) : Statement (.fp2Sqr zd za) :=
  ⟨("FP2_SQR", 0x74000000, 0xfc003fff), by simp [opcodeRows, opcodeRowsFp2], rfl,
    rowSelects_fields (m := ⟨0x3f, 0x0, 0x0, 0x3f, 0xff⟩) (y := ⟨0x1d, 0, 0, 0, 0⟩)
      (by decide) (by decide) (by simp [instrFields])⟩

theorem fp2Inv (zd za : ZReg) : Statement (.fp2Inv zd za) :=
  ⟨("FP2_INV", 0x78000000, 0xfc003fff), by simp [opcodeRows, opcodeRowsFp2], rfl,
    rowSelects_fields (m := ⟨0x3f, 0x0, 0x0, 0x3f, 0xff⟩) (y := ⟨0x1e, 0, 0, 0, 0⟩)
      (by decide) (by decide) (by simp [instrFields])⟩

theorem fp2Neg (zd za : ZReg) : Statement (.fp2Neg zd za) :=
  ⟨("FP2_NEG", 0x7c000000, 0xfc003fff), by simp [opcodeRows, opcodeRowsFp2], rfl,
    rowSelects_fields (m := ⟨0x3f, 0x0, 0x0, 0x3f, 0xff⟩) (y := ⟨0x1f, 0, 0, 0, 0⟩)
      (by decide) (by decide) (by simp [instrFields])⟩

theorem fp2Eq (wd : WReg) (za zb : ZReg) : Statement (.fp2Eq wd za zb) :=
  ⟨("FP2_EQ", 0x80000000, 0xfc0000ff), by simp [opcodeRows, opcodeRowsFp2], rfl,
    rowSelects_fields (m := ⟨0x3f, 0x0, 0x0, 0x0, 0xff⟩) (y := ⟨0x20, 0, 0, 0, 0⟩)
      (by decide) (by decide) (by simp [instrFields])⟩

theorem fp2Sqrt (zd za : ZReg) : Statement (.fp2Sqrt zd za) :=
  ⟨("FP2_SQRT", 0x84000000, 0xfc003fff), by simp [opcodeRows, opcodeRowsFp2], rfl,
    rowSelects_fields (m := ⟨0x3f, 0x0, 0x0, 0x3f, 0xff⟩) (y := ⟨0x21, 0, 0, 0, 0⟩)
      (by decide) (by decide) (by simp [instrFields])⟩

theorem ptIsinf (wd : WReg) (qa : QReg) : Statement (.ptIsinf wd qa) :=
  ⟨("PT_ISINF", 0xa0000000, 0xfc003fff), by simp [opcodeRows, opcodeRowsCurve], rfl,
    rowSelects_fields (m := ⟨0x3f, 0x0, 0x0, 0x3f, 0xff⟩) (y := ⟨0x28, 0, 0, 0, 0⟩)
      (by decide) (by decide) (by simp [instrFields])⟩

theorem xdbl (qd qc qa : QReg) : Statement (.xdbl qd qc qa) :=
  ⟨("XDBL", 0xa4000000, 0xfc0000ff), by simp [opcodeRows, opcodeRowsCurve], rfl,
    rowSelects_fields (m := ⟨0x3f, 0x0, 0x0, 0x0, 0xff⟩) (y := ⟨0x29, 0, 0, 0, 0⟩)
      (by decide) (by decide) (by simp [instrFields])⟩

theorem xadd (qd qc qa : QReg) (qb : QcReg) : Statement (.xadd qd qc qa qb) :=
  ⟨("XADD", 0xa8000000, 0xfc000000), by simp [opcodeRows, opcodeRowsCurve], rfl,
    rowSelects_fields (m := ⟨0x3f, 0x0, 0x0, 0x0, 0x0⟩) (y := ⟨0x2a, 0, 0, 0, 0⟩)
      (by decide) (by decide) (by simp [instrFields])⟩

theorem xtpl (qd qc qa : QReg) : Statement (.xtpl qd qc qa) :=
  ⟨("XTPL", 0xac000000, 0xfc0000ff), by simp [opcodeRows, opcodeRowsCurve], rfl,
    rowSelects_fields (m := ⟨0x3f, 0x0, 0x0, 0x0, 0xff⟩) (y := ⟨0x2b, 0, 0, 0, 0⟩)
      (by decide) (by decide) (by simp [instrFields])⟩

theorem xdble (qd qc qa : QReg) (n : BitVec 8) : Statement (.xdble qd qc qa n) :=
  ⟨("XDBLE", 0xb0000000, 0xfc000000), by simp [opcodeRows, opcodeRowsCurve], rfl,
    rowSelects_fields (m := ⟨0x3f, 0x0, 0x0, 0x0, 0x0⟩) (y := ⟨0x2c, 0, 0, 0, 0⟩)
      (by decide) (by decide) (by simp [instrFields])⟩

theorem xtple (qd qc qa : QReg) (n : BitVec 8) : Statement (.xtple qd qc qa n) :=
  ⟨("XTPLE", 0xb4000000, 0xfc000000), by simp [opcodeRows, opcodeRowsCurve], rfl,
    rowSelects_fields (m := ⟨0x3f, 0x0, 0x0, 0x0, 0x0⟩) (y := ⟨0x2d, 0, 0, 0, 0⟩)
      (by decide) (by decide) (by simp [instrFields])⟩

theorem ladder (qd qc qa : QReg) (ws : BitVec 3) (msb : BitVec 5) : Statement (.ladder qd qc qa ws msb) :=
  ⟨("LADDER", 0xb8000000, 0xfc000000), by simp [opcodeRows, opcodeRowsCurve], rfl,
    rowSelects_fields (m := ⟨0x3f, 0x0, 0x0, 0x0, 0x0⟩) (y := ⟨0x2e, 0, 0, 0, 0⟩)
      (by decide) (by decide) (by simp [instrFields])⟩

theorem jinv (zd : ZReg) (qc : QReg) : Statement (.jinv zd qc) :=
  ⟨("JINV", 0xbc000000, 0xfc003fff), by simp [opcodeRows, opcodeRowsCurve], rfl,
    rowSelects_fields (m := ⟨0x3f, 0x0, 0x0, 0x3f, 0xff⟩) (y := ⟨0x2f, 0, 0, 0, 0⟩)
      (by decide) (by decide) (by simp [instrFields])⟩

theorem curve2iso (qd qk qc : QReg) : Statement (.curve2iso qd qk qc) :=
  ⟨("CURVE2ISO", 0xc0000000, 0xfc0000ff), by simp [opcodeRows, opcodeRowsIsogeny], rfl,
    rowSelects_fields (m := ⟨0x3f, 0x0, 0x0, 0x0, 0xff⟩) (y := ⟨0x30, 0, 0, 0, 0⟩)
      (by decide) (by decide) (by simp [instrFields])⟩

theorem eval2iso (qd qk qa : QReg) : Statement (.eval2iso qd qk qa) :=
  ⟨("EVAL2ISO", 0xc4000000, 0xfc0000ff), by simp [opcodeRows, opcodeRowsIsogeny], rfl,
    rowSelects_fields (m := ⟨0x3f, 0x0, 0x0, 0x0, 0xff⟩) (y := ⟨0x31, 0, 0, 0, 0⟩)
      (by decide) (by decide) (by simp [instrFields])⟩

theorem curve3iso (qd qk qc : QReg) : Statement (.curve3iso qd qk qc) :=
  ⟨("CURVE3ISO", 0xc8000000, 0xfc0000ff), by simp [opcodeRows, opcodeRowsIsogeny], rfl,
    rowSelects_fields (m := ⟨0x3f, 0x0, 0x0, 0x0, 0xff⟩) (y := ⟨0x32, 0, 0, 0, 0⟩)
      (by decide) (by decide) (by simp [instrFields])⟩

theorem eval3iso (qd qk qa : QReg) : Statement (.eval3iso qd qk qa) :=
  ⟨("EVAL3ISO", 0xcc000000, 0xfc0000ff), by simp [opcodeRows, opcodeRowsIsogeny], rfl,
    rowSelects_fields (m := ⟨0x3f, 0x0, 0x0, 0x0, 0xff⟩) (y := ⟨0x33, 0, 0, 0, 0⟩)
      (by decide) (by decide) (by simp [instrFields])⟩

theorem curve4iso (qd qk qc : QReg) : Statement (.curve4iso qd qk qc) :=
  ⟨("CURVE4ISO", 0xd0000000, 0xfc0000ff), by simp [opcodeRows, opcodeRowsIsogeny], rfl,
    rowSelects_fields (m := ⟨0x3f, 0x0, 0x0, 0x0, 0xff⟩) (y := ⟨0x34, 0, 0, 0, 0⟩)
      (by decide) (by decide) (by simp [instrFields])⟩

theorem eval4iso (qd qk qa : QReg) : Statement (.eval4iso qd qk qa) :=
  ⟨("EVAL4ISO", 0xd4000000, 0xfc0000ff), by simp [opcodeRows, opcodeRowsIsogeny], rfl,
    rowSelects_fields (m := ⟨0x3f, 0x0, 0x0, 0x0, 0xff⟩) (y := ⟨0x35, 0, 0, 0, 0⟩)
      (by decide) (by decide) (by simp [instrFields])⟩

theorem iso2e (qc qs qa : QReg) (a2 a1 : Bool) (e : BitVec 6) : Statement (.iso2e qc qs qa a2 a1 e) :=
  ⟨("ISO2E", 0xd8000000, 0xfc000000), by simp [opcodeRows, opcodeRowsIsogeny], rfl,
    rowSelects_fields (m := ⟨0x3f, 0x0, 0x0, 0x0, 0x0⟩) (y := ⟨0x36, 0, 0, 0, 0⟩)
      (by decide) (by decide) (by simp [instrFields])⟩

theorem iso3e (qc qs qa : QReg) (a2 a1 : Bool) (e : BitVec 6) : Statement (.iso3e qc qs qa a2 a1 e) :=
  ⟨("ISO3E", 0xdc000000, 0xfc000000), by simp [opcodeRows, opcodeRowsIsogeny], rfl,
    rowSelects_fields (m := ⟨0x3f, 0x0, 0x0, 0x0, 0x0⟩) (y := ⟨0x37, 0, 0, 0, 0⟩)
      (by decide) (by decide) (by simp [instrFields])⟩

theorem getxr (zd : PkReg) (qc qa : QReg) (qb : QcReg) : Statement (.getxr zd qc qa qb) :=
  ⟨("GETXR", 0xe0000000, 0xfc000000), by simp [opcodeRows, opcodeRowsProtocol], rfl,
    rowSelects_fields (m := ⟨0x3f, 0x0, 0x0, 0x0, 0x0⟩) (y := ⟨0x38, 0, 0, 0, 0⟩)
      (by decide) (by decide) (by simp [instrFields])⟩

theorem recover (qd : T3Reg) (za : PkReg) : Statement (.recover qd za) :=
  ⟨("RECOVER", 0xe4000000, 0xfc003fff), by simp [opcodeRows, opcodeRowsProtocol], rfl,
    rowSelects_fields (m := ⟨0x3f, 0x0, 0x0, 0x3f, 0xff⟩) (y := ⟨0x39, 0, 0, 0, 0⟩)
      (by decide) (by decide) (by simp [instrFields])⟩

theorem isogen2 (zd : PkReg) (ws : WReg) : Statement (.isogen2 zd ws) :=
  ⟨("ISOGEN2", 0xe8000000, 0xfc003fff), by simp [opcodeRows, opcodeRowsProtocol], rfl,
    rowSelects_fields (m := ⟨0x3f, 0x0, 0x0, 0x3f, 0xff⟩) (y := ⟨0x3a, 0, 0, 0, 0⟩)
      (by decide) (by decide) (by simp [instrFields])⟩

theorem isogen3 (zd : PkReg) (ws : WReg) : Statement (.isogen3 zd ws) :=
  ⟨("ISOGEN3", 0xec000000, 0xfc003fff), by simp [opcodeRows, opcodeRowsProtocol], rfl,
    rowSelects_fields (m := ⟨0x3f, 0x0, 0x0, 0x3f, 0xff⟩) (y := ⟨0x3b, 0, 0, 0, 0⟩)
      (by decide) (by decide) (by simp [instrFields])⟩

theorem isoex2 (zd : ZReg) (za : PkReg) (ws : WReg) : Statement (.isoex2 zd za ws) :=
  ⟨("ISOEX2", 0xf0000000, 0xfc0000ff), by simp [opcodeRows, opcodeRowsProtocol], rfl,
    rowSelects_fields (m := ⟨0x3f, 0x0, 0x0, 0x0, 0xff⟩) (y := ⟨0x3c, 0, 0, 0, 0⟩)
      (by decide) (by decide) (by simp [instrFields])⟩

theorem isoex3 (zd : ZReg) (za : PkReg) (ws : WReg) : Statement (.isoex3 zd za ws) :=
  ⟨("ISOEX3", 0xf4000000, 0xfc0000ff), by simp [opcodeRows, opcodeRowsProtocol], rfl,
    rowSelects_fields (m := ⟨0x3f, 0x0, 0x0, 0x0, 0xff⟩) (y := ⟨0x3d, 0, 0, 0, 0⟩)
      (by decide) (by decide) (by simp [instrFields])⟩

end Sys2Proof.Laws.EncodeSelectsRow
end

