-- ==== Sys2Proof/Tests/Slice0.lean ====
section
/-! SUPPORT. Tests of one step each, with words and results from the spec (`30_encoding.md`, `95_test_vectors.md` section 2),
the well-formedness smoke test, and for every statement with hypotheses a witness that meets them. -/

open Sys2Proof Sys2Proof.Machine

namespace Sys2Proof.Tests

set_option Elab.async false

/-! ### Small states and their readings -/

/-- The words `l` in `f[r]`, `f[r+1]`, …. -/
def putF (s : State) (r : Nat) (l : List Nat) : State := (l.zipIdx r).foldl (fun t e => t.writeF e.2 e.1) s

/-- The word `v` in `w[r]`. -/
def putW (s : State) (r : Nat) (v : Nat) : State := s.writeW r (BitVec.ofNat 32 v)

/-- `s` with the bank locked. -/
def lock (s : State) : State := { s with locked := true }

/-- `s` with a fault recorded. -/
def faulted (s : State) : State := s.faultEntry .illegalCommand 0

/-- The reset state with the bank of `TestParams` (rule R251), locked. -/
def withTestBank : State := lock
  (([6, 0, 1, 0, 0xa7e21eb,
     0x9ab3afb, 0x96a2d61, 0xc6f25cd, 0x9875b2b, 0x76a3372,
     0xcaf1494, 0x16c1a13, 0xd20e81, 0xc5c529b, 0x9ad4517,
     0x7ddc12e, 0x7a3a873, 0x8e4641f, 0x6f4f02b, 0xa2091ad].zipIdx).foldl (fun t e => t.writePrm e.2 e.1) State.reset)

/-- The `n` words of `f` from `f[r]` after `c` is written to CMD, if it raises no fault. -/
def fAfter (c : Word) (s : State) (r n : Nat) : Option (List Nat) :=
  match commandWrite c s with
  | .next t => if t.fault then none else some ((List.range n).map fun k => (t.fWord (r + k)).toNat)
  | _ => none

/-- `w[r]` after `c` is written to CMD, if it raises no fault. -/
def wAfter (c : Word) (s : State) (r : Nat) : Option Nat :=
  match commandWrite c s with
  | .next t => if t.fault then none else some (t.wWord r).toNat
  | _ => none

/-- `prm[r]` after `c` is written to CMD, if it raises no fault. -/
def prmAfter (c : Word) (s : State) (r : Nat) : Option Nat :=
  match commandWrite c s with
  | .next t => if t.fault then none else some (t.prmWord r).toNat
  | _ => none

/-- STATUS and ERRCMD after `c` is written to CMD. -/
def statusAfter (c : Word) (s : State) : Option (Word × Word) :=
  match commandWrite c s with
  | .next t => some (t.statusWord, t.errcmd)
  | _ => none

/-- What one read of the port at `pa` returns. -/
def readBack (pa : BitVec 8) (s : State) : Option Word :=
  match portRead pa s with
  | .next t => t.replies.head?
  | _ => none

/-- What a read of the port at `pa` returns after `v` is written to the port at `pb`. -/
def readAfterWrite (pb : BitVec 8) (v : Word) (pa : BitVec 8) (s : State) : Option Word :=
  match portWrite pb v s with
  | .next t => readBack pa t
  | _ => none

/-! ### Operands of `95_test_vectors.md` -/

/-- The curve a = 6, b = 1. -/
def curveE : List Nat := [6, 0, 1, 0]
/-- The sentinel. -/
def infWords : List Nat := [0, 0, 1, 0]
/-- The point P. -/
def pointP : List Nat := [4, 1, 0x22eedca, 0x2ce7a7a]
/-- The point Q. -/
def pointQ : List Nat := [1, 1, 0x7d23078, 0x604aa0]
/-- A point of order 2. -/
def kernel2 : List Nat := [0xccfddfc, 0, 0, 0]
/-- A point of order 3. -/
def kernel3 : List Nat := [0x364e5bf, 0xa23e469, 0x2df4cda, 0xaae29b6]
/-- A point of order 4. -/
def kernel4 : List Nat := [0xc74bcdc, 0, 0, 0xb78768]
/-- A point of order 8. -/
def kernel8 : List Nat := [0xb9db62c, 0, 0, 0xa73d6dd]
/-- A point of order 9. -/
def kernel9 : List Nat := [0x4df285d, 0x9726403, 0x32ba03b, 0x709e242]

/-! ### Well-formedness: an ill-formed term for each check, which the check refuses (rules R82, R83, R264) -/

theorem test_wellFormed_S_W : (Instr.prmConst 19 7).WellFormed ∧ ¬ (Instr.prmConst 20 7).WellFormed ∧
    ¬ (Instr.prmConst 19 8).WellFormed := by decide
theorem test_wellFormed_Z : (Instr.fp2Add 62 0 2).WellFormed ∧ ¬ (Instr.fp2Add 61 0 2).WellFormed ∧
    ¬ (Instr.fp2Add 62 1 2).WellFormed ∧ ¬ (Instr.fp2Add 62 0 3).WellFormed := by decide
theorem test_wellFormed_Q : (Instr.xdbl 60 0 4).WellFormed ∧ ¬ (Instr.xdbl 62 0 4).WellFormed ∧
    ¬ (Instr.xdbl 60 1 4).WellFormed ∧ ¬ (Instr.xdbl 60 0 6).WellFormed := by decide
theorem test_wellFormed_QC : (Instr.xadd 12 0 4 60).WellFormed ∧ ¬ (Instr.xadd 12 0 4 62).WellFormed ∧
    ¬ (Instr.xadd 12 0 4 64).WellFormed := by decide
theorem test_wellFormed_PK : (Instr.isogen2 58 7).WellFormed ∧ ¬ (Instr.isogen2 59 7).WellFormed ∧
    ¬ (Instr.isogen2 60 7).WellFormed ∧ ¬ (Instr.isogen2 58 8).WellFormed := by decide
theorem test_wellFormed_T3 : (Instr.recover 52 58).WellFormed ∧ ¬ (Instr.recover 50 58).WellFormed ∧
    ¬ (Instr.recover 56 58).WellFormed ∧ ¬ (Instr.recover 52 60).WellFormed := by decide
theorem test_wellFormed_walk_bound : (Instr.iso2e 0 4 56 true true 15).WellFormed ∧
    ¬ (Instr.iso2e 0 4 60 true false 15).WellFormed ∧ (Instr.iso2e 0 4 60 false true 15).WellFormed := by decide
theorem test_wellFormed_walk_overlap : ¬ (Instr.iso3e 0 0 8 false false 1).WellFormed ∧
    ¬ (Instr.iso3e 0 4 0 false true 1).WellFormed ∧ (Instr.iso3e 0 4 0 false false 1).WellFormed ∧
    ¬ (Instr.iso3e 0 8 4 true false 2).WellFormed ∧ ¬ (Instr.iso3e 0 4 2 false false 2).WellFormed := by decide

/-! ### Decoding -/

/-- Rule R84, the setup rows: the fields `op`, `rd`, `ra`, `rb`, `imm8` written out. -/
theorem test_decode_setup :
    decode 0b000001_010011_000111_000000_00000000 = .ok (.prmConst 19 7) ∧
    decode 0b000010_000000_000000_000000_00000000 = .ok .plock := by
  decide +kernel

/-- Rule R84, the fp rows: the fields `op`, `rd`, `ra`, `rb`, `imm8` written out. -/
theorem test_decode_fp :
    decode 0b001000_000010_000111_000000_00000000 = .ok (.fpConst 2 7) ∧
    decode 0b001001_000010_111101_100001_00000000 = .ok (.fpAdd 2 61 33) ∧
    decode 0b001010_000010_111101_100001_00000000 = .ok (.fpSub 2 61 33) ∧
    decode 0b001011_000010_111101_100001_00000000 = .ok (.fpMul 2 61 33) ∧
    decode 0b001100_000010_111101_000000_00000000 = .ok (.fpNeg 2 61) ∧
    decode 0b001101_000010_111101_000000_00000000 = .ok (.fpSqr 2 61) ∧
    decode 0b001110_000010_111101_000000_00000000 = .ok (.fpInv 2 61) ∧
    decode 0b001111_000010_111101_000111_00000000 = .ok (.fpPow 2 61 7) ∧
    decode 0b010000_000010_111101_000000_00000000 = .ok (.fpSqrt 2 61) ∧
    decode 0b010001_000111_000010_111101_00000000 = .ok (.fpEq 7 2 61) ∧
    decode 0b010010_000111_000010_000000_00000000 = .ok (.fpIseven 7 2) ∧
    decode 0b010011_000111_000010_000000_10100101 = .ok (.fpBit 7 2 165) ∧
    decode 0b010100_000111_000010_000000_00000000 = .ok (.fpIsqr 7 2) := by
  decide +kernel

/-- Rule R84, the fp2 rows: the fields `op`, `rd`, `ra`, `rb`, `imm8` written out. -/
theorem test_decode_fp2 :
    decode 0b011000_111110_000111_000000_00000000 = .ok (.fp2Const 62 7) ∧
    decode 0b011001_111110_000111_000011_00000000 = .ok (.fp2Constp 62 7 3) ∧
    decode 0b011010_111110_000010_011110_00000000 = .ok (.fp2Add 62 2 30) ∧
    decode 0b011011_111110_000010_011110_00000000 = .ok (.fp2Sub 62 2 30) ∧
    decode 0b011100_111110_000010_011110_00000000 = .ok (.fp2Mul 62 2 30) ∧
    decode 0b011101_111110_000010_000000_00000000 = .ok (.fp2Sqr 62 2) ∧
    decode 0b011110_111110_000010_000000_00000000 = .ok (.fp2Inv 62 2) ∧
    decode 0b011111_111110_000010_000000_00000000 = .ok (.fp2Neg 62 2) ∧
    decode 0b100000_000111_111110_000010_00000000 = .ok (.fp2Eq 7 62 2) ∧
    decode 0b100001_111110_000010_000000_00000000 = .ok (.fp2Sqrt 62 2) := by
  decide +kernel

/-- Rule R84, the curve rows: the fields `op`, `rd`, `ra`, `rb`, `imm8` written out. -/
theorem test_decode_curve :
    decode 0b101000_000111_001100_000000_00000000 = .ok (.ptIsinf 7 12) ∧
    decode 0b101001_001100_101000_111000_00000000 = .ok (.xdbl 12 40 56) ∧
    decode 0b101010_001100_101000_111000_00111100 = .ok (.xadd 12 40 56 60) ∧
    decode 0b101011_001100_101000_111000_00000000 = .ok (.xtpl 12 40 56) ∧
    decode 0b101100_001100_101000_111000_10100101 = .ok (.xdble 12 40 56 165) ∧
    decode 0b101101_001100_101000_111000_10100101 = .ok (.xtple 12 40 56 165) ∧
    decode 0b101110_001100_101000_111000_11010011 = .ok (.ladder 12 40 56 6 19) ∧
    decode 0b101111_111110_001100_000000_00000000 = .ok (.jinv 62 12) := by
  decide +kernel

/-- Rule R84, the isogeny rows: the fields `op`, `rd`, `ra`, `rb`, `imm8` written out. -/
theorem test_decode_isogeny :
    decode 0b110000_001100_101000_111000_00000000 = .ok (.curve2iso 12 40 56) ∧
    decode 0b110001_001100_101000_111000_00000000 = .ok (.eval2iso 12 40 56) ∧
    decode 0b110010_001100_101000_111000_00000000 = .ok (.curve3iso 12 40 56) ∧
    decode 0b110011_001100_101000_111000_00000000 = .ok (.eval3iso 12 40 56) ∧
    decode 0b110100_001100_101000_111000_00000000 = .ok (.curve4iso 12 40 56) ∧
    decode 0b110101_001100_101000_111000_00000000 = .ok (.eval4iso 12 40 56) ∧
    decode 0b110110_001100_101000_111000_10101101 = .ok (.iso2e 12 40 56 true false 45) ∧
    decode 0b110111_001100_101000_111000_01101101 = .ok (.iso3e 12 40 56 false true 45) := by
  decide +kernel

/-- Rule R84, the protocol rows: the fields `op`, `rd`, `ra`, `rb`, `imm8` written out. -/
theorem test_decode_protocol :
    decode 0b111000_111010_001100_101000_00111100 = .ok (.getxr 58 12 40 60) ∧
    decode 0b111001_110100_111010_000000_00000000 = .ok (.recover 52 58) ∧
    decode 0b111010_111010_000111_000000_00000000 = .ok (.isogen2 58 7) ∧
    decode 0b111011_111010_000111_000000_00000000 = .ok (.isogen3 58 7) ∧
    decode 0b111100_111110_111010_000111_00000000 = .ok (.isoex2 62 58 7) ∧
    decode 0b111101_111110_111010_000111_00000000 = .ok (.isoex3 62 58 7) := by
  decide +kernel

/-- Words that select no command (rule R263), each with its reason. -/
theorem test_decode_refused :
    decode 0x00000000 = .error (.reservedOpcode 0x00) ∧ decode 0xffffffff = .error (.reservedOpcode 0x3f) ∧
    decode 0x54000000 = .error (.reservedOpcode 0x15) ∧ decode 0x08000001 = .error (.unusedFieldNonzero 0x02) ∧
    decode 0x2c200101 = .error (.unusedFieldNonzero 0x0b) ∧ decode 0xbc800400 = .error (.unusedFieldNonzero 0x2f) := by
  decide +kernel

/-! ### Faults (section 2.8) -/

theorem test_fault_illegal_command :
    statusAfter 0x00000000 State.reset = some (0x00000012, 0x00000000) ∧
    statusAfter 0x30200100 State.reset = some (0x00000012, 0x30200100) ∧
    statusAfter 0xe8100001 State.reset = some (0x00000012, 0xe8100001) := by decide +kernel
theorem test_fault_illegal_operand :
    statusAfter 0x20020000 State.reset = some (0x00000022, 0x20020000) ∧
    statusAfter 0xe7800000 State.reset = some (0x00000022, 0xe7800000) ∧
    statusAfter 0xebb04000 State.reset = some (0x00000022, 0xebb04000) ∧
    statusAfter 0xdc020482 State.reset = some (0x00000022, 0xdc020482) := by decide +kernel
theorem test_fault_parameters_locked :
    statusAfter 0x04000000 (lock State.reset) = some (0x00000033, 0x04000000) ∧
    statusAfter 0x08000000 (lock State.reset) = some (0x00000033, 0x08000000) := by decide +kernel
theorem test_fault_parameters_not_set_up :
    statusAfter 0xe8004000 (putW State.reset 1 0x8000) = some (0x00000042, 0xe8004000) ∧
    statusAfter 0xf5000100 (putW State.reset 1 3) = some (0x00000042, 0xf5000100) := by decide +kernel
theorem test_fault_scalar_range :
    statusAfter 0xe8004000 (lock (putW State.reset 1 0x8000)) = some (0x00000053, 0xe8004000) ∧
    statusAfter 0xec004000 (lock (putW State.reset 1 0x19a0)) = some (0x00000053, 0xec004000) := by decide +kernel
/-- Rule R269: a second faulting word is ignored. -/
theorem test_fault_keeps_the_first :
    statusAfter 0x20020000 (faulted State.reset) = some (0x00000012, 0x00000000) := by decide +kernel
theorem test_plock_locks : statusAfter 0x08000000 State.reset = some (0x00000001, 0x00000000) := by decide +kernel
theorem test_no_fault_at_the_largest_operands :
    statusAfter 0xe74e8000 State.reset = some (0x00000000, 0x00000000) := by decide +kernel

/-! ### Host port (section 2.9) -/

theorem test_port_constants : readBack 0x03 State.reset = some 0x0cd07fff ∧ readBack 0x04 State.reset = some 0x0c0f080f := by
  decide +kernel
theorem test_port_unmapped : readBack 0x94 (putF State.reset 63 [5]) = some 0 ∧ readBack 0x18 State.reset = some 0 := by
  decide +kernel
theorem test_port_edges : readBack 0x7f (putF State.reset 63 [5]) = some 5 ∧ readBack 0x93 withTestBank = some 0x0a2091ad := by
  decide +kernel
theorem test_port_writes_w : readAfterWrite 0x17 0xdeadbeef 0x17 State.reset = some 0xdeadbeef := by decide +kernel
theorem test_port_f_is_read_only : readAfterWrite 0x7f 1 0x7f (putF State.reset 63 [5]) = some 5 := by decide +kernel
theorem test_port_ctrl : readAfterWrite 0x05 3 0x7f (putF State.reset 63 [5]) = some 0 ∧
    readAfterWrite 0x05 0xfffffffe 0x7f (putF State.reset 63 [5]) = some 5 := by decide +kernel

/-! ### Commands: one step each (sections 2.1 to 2.7) -/

/-- `PRM_CONST 19, w3`. -/
theorem test_prmConst_last_slot_reduced :
    prmAfter 0x0530c000 (putW State.reset 3 0xffffffff) 19 = some 0xc868012 := by
  decide +kernel

/-- `PRM_CONST 5, w3`. -/
theorem test_prmConst_of_modulus :
    prmAfter 0x0450c000 (putW State.reset 3 0xcd07fff) 5 = some 0 := by
  decide +kernel

/-- `FP_CONST f5, w1`. -/
theorem test_fpConst_reduces_all_ones :
    fAfter 0x20504000 (putW State.reset 1 0xffffffff) 5 1 = some [0xc868012] := by
  decide +kernel

/-- `FP_CONST f5, w1`. -/
theorem test_fpConst_of_modulus :
    fAfter 0x20504000 (putW State.reset 1 0xcd07fff) 5 1 = some [0] := by
  decide +kernel

/-- `FP_ADD f2, f0, f1`. -/
theorem test_fpAdd_wraps_to_zero :
    fAfter 0x24200100 (putF State.reset 0 [0xcd07ffe, 1]) 2 1 = some [0] := by
  decide +kernel

/-- `FP_ADD f2, f0, f1`. -/
theorem test_fpAdd_wraps :
    fAfter 0x24200100 (putF State.reset 0 [0xcd07ffe, 0xcd07ffe]) 2 1 = some [0xcd07ffd] := by
  decide +kernel

/-- `FP_SUB f2, f0, f1`. -/
theorem test_fpSub_borrows :
    fAfter 0x28200100 (putF State.reset 0 [0, 1]) 2 1 = some [0xcd07ffe] := by
  decide +kernel

/-- `FP_SUB f0, f0, f0`. -/
theorem test_fpSub_of_itself_in_place :
    fAfter 0x28000000 (putF State.reset 0 [0x1234567]) 0 1 = some [0] := by
  decide +kernel

/-- `FP_MUL f2, f0, f1`. -/
theorem test_fpMul_reduces :
    fAfter 0x2c200100 (putF State.reset 0 [0x1234567, 0xabcdef0]) 2 1 = some [0xb64f417] := by
  decide +kernel

/-- `FP_MUL f2, f0, f1`. -/
theorem test_fpMul_of_minus_ones :
    fAfter 0x2c200100 (putF State.reset 0 [0xcd07ffe, 0xcd07ffe]) 2 1 = some [1] := by
  decide +kernel

/-- `FP_NEG f2, f0`. -/
theorem test_fpNeg_of_zero :
    fAfter 0x30200000 (putF State.reset 0 [0]) 2 1 = some [0] := by
  decide +kernel

/-- `FP_NEG f2, f0`. -/
theorem test_fpNeg_of_one :
    fAfter 0x30200000 (putF State.reset 0 [1]) 2 1 = some [0xcd07ffe] := by
  decide +kernel

/-- `FP_SQR f2, f0`. -/
theorem test_fpSqr_reduces :
    fAfter 0x34200000 (putF State.reset 0 [0x1234567]) 2 1 = some [0x49d0c00] := by
  decide +kernel

/-- `FP_SQR f2, f0`. -/
theorem test_fpSqr_of_half :
    fAfter 0x34200000 (putF State.reset 0 [0x6684000]) 2 1 = some [0x3342000] := by
  decide +kernel

/-- `FP_INV f2, f0`. -/
theorem test_fpInv_inverts :
    fAfter 0x38200000 (putF State.reset 0 [0x1234567]) 2 1 = some [0x4f4902c] := by
  decide +kernel

/-- `FP_INV f2, f0`. -/
theorem test_fpInv_of_zero :
    fAfter 0x38200000 (putF State.reset 0 [0]) 2 1 = some [0] := by
  decide +kernel

/-- `FP_POW f2, f0, w2`. -/
theorem test_fpPow_zero_to_zero :
    fAfter 0x3c200200 (putW (putF State.reset 0 [0]) 2 0) 2 1 = some [1] := by
  decide +kernel

/-- `FP_POW f2, f0, w2`. -/
theorem test_fpPow_all_ones_exponent :
    fAfter 0x3c200200 (putW (putF State.reset 0 [0x1234567]) 2 0xffffffff) 2 1 = some [0x1ff1f2a] := by
  decide +kernel

/-- `FP_SQRT f2, f0`. -/
theorem test_fpSqrt_root_of_one_is_even :
    fAfter 0x40200000 (putF State.reset 0 [1]) 2 1 = some [0xcd07ffe] := by
  decide +kernel

/-- `FP_SQRT f2, f0`. -/
theorem test_fpSqrt_of_nonresidue :
    fAfter 0x40200000 (putF State.reset 0 [5]) 2 1 = some [0x91d6d68] := by
  decide +kernel

/-- `FP_EQ w3, f0, f1`. -/
theorem test_fpEq_equal :
    wAfter 0x44300100 (putF State.reset 0 [0x1234567, 0x1234567]) 3 = some 1 := by
  decide +kernel

/-- `FP_EQ w3, f0, f1`. -/
theorem test_fpEq_different :
    wAfter 0x44300100 (putF State.reset 0 [0x1234567, 0xabcdef0]) 3 = some 0 := by
  decide +kernel

/-- `FP_ISEVEN w3, f0`. -/
theorem test_fpIseven_of_one :
    wAfter 0x48300000 (putF State.reset 0 [1]) 3 = some 0 := by
  decide +kernel

/-- `FP_ISEVEN w3, f0`. -/
theorem test_fpIseven_of_largest :
    wAfter 0x48300000 (putF State.reset 0 [0xcd07ffe]) 3 = some 1 := by
  decide +kernel

/-- `FP_BIT w3, f0, 27`. -/
theorem test_fpBit_top_bit :
    wAfter 0x4c30001b (putF State.reset 0 [0xcd07ffe]) 3 = some 1 := by
  decide +kernel

/-- `FP_BIT w3, f0, 32`. -/
theorem test_fpBit_past_the_word :
    wAfter 0x4c300020 (putF State.reset 0 [0x1234567]) 3 = some 0 := by
  decide +kernel

/-- `FP_ISQR w3, f0`. -/
theorem test_fpIsqr_of_two :
    wAfter 0x50300000 (putF State.reset 0 [2]) 3 = some 1 := by
  decide +kernel

/-- `FP_ISQR w3, f0`. -/
theorem test_fpIsqr_of_five :
    wAfter 0x50300000 (putF State.reset 0 [5]) 3 = some 0 := by
  decide +kernel

/-- `FP2_CONST z3, w1`. -/
theorem test_fp2Const_reduces :
    fAfter 0x60604000 (putW (putF State.reset 6 [7, 7]) 1 0xffffffff) 6 2 = some [0xc868012, 0] := by
  decide +kernel

/-- `FP2_CONSTP z3, w1, w2`. -/
theorem test_fp2Constp_reduces_both :
    fAfter 0x64604200 (putW (putW State.reset 1 0xcd08001) 2 0xffffffff) 6 2 = some [2, 0xc868012] := by
  decide +kernel

/-- `FP2_ADD z2, z0, z1`. -/
theorem test_fp2Add_carries_in_one :
    fAfter 0x68400200 (putF State.reset 0 [0x1234567, 0xabcdef0, 3, 0xcd07ffe]) 4 2 = some [0x123456a, 0xabcdeef] := by
  decide +kernel

/-- `FP2_ADD z2, z0, z1`. -/
theorem test_fp2Add_wraps_in_both :
    fAfter 0x68400200 (putF State.reset 0 [0xcd07ffe, 0xcd07ffe, 1, 1]) 4 2 = some [0, 0] := by
  decide +kernel

/-- `FP2_SUB z2, z0, z1`. -/
theorem test_fp2Sub_borrows_in_one :
    fAfter 0x6c400200 (putF State.reset 0 [0x1234567, 0xabcdef0, 3, 0xcd07ffe]) 4 2 = some [0x1234564, 0xabcdef1] := by
  decide +kernel

/-- `FP2_SUB z2, z0, z1`. -/
theorem test_fp2Sub_borrows_in_both :
    fAfter 0x6c400200 (putF State.reset 0 [0, 0, 1, 1]) 4 2 = some [0xcd07ffe, 0xcd07ffe] := by
  decide +kernel

/-- `FP2_MUL z2, z0, z1`. -/
theorem test_fp2Mul_multiplies :
    fAfter 0x70400200 (putF State.reset 0 [0x1234567, 0xabcdef0, 3, 0xcd07ffe]) 4 2 = some [0x1562f26, 0x572576b] := by
  decide +kernel

/-- `FP2_MUL z2, z0, z1`. -/
theorem test_fp2Mul_i_times_i :
    fAfter 0x70400200 (putF State.reset 0 [0, 1, 0, 1]) 4 2 = some [0xcd07ffe, 0] := by
  decide +kernel

/-- `FP2_SQR z2, z0`. -/
theorem test_fp2Sqr_squares :
    fAfter 0x74400000 (putF State.reset 0 [0x1234567, 0xabcdef0]) 4 2 = some [0x2c8598, 0x9f9682f] := by
  decide +kernel

/-- `FP2_SQR z2, z0`. -/
theorem test_fp2Sqr_of_one_plus_i :
    fAfter 0x74400000 (putF State.reset 0 [1, 1]) 4 2 = some [0, 2] := by
  decide +kernel

/-- `FP2_INV z2, z0`. -/
theorem test_fp2Inv_inverts :
    fAfter 0x78400000 (putF State.reset 0 [0x1234567, 0xabcdef0]) 4 2 = some [0x876caa, 0x31c3383] := by
  decide +kernel

/-- `FP2_INV z2, z0`. -/
theorem test_fp2Inv_of_zero :
    fAfter 0x78400000 (putF State.reset 0 [0, 0]) 4 2 = some [0, 0] := by
  decide +kernel

/-- `FP2_NEG z2, z0`. -/
theorem test_fp2Neg_negates :
    fAfter 0x7c400000 (putF State.reset 0 [0x1234567, 0xabcdef0]) 4 2 = some [0xbad3a98, 0x213a10f] := by
  decide +kernel

/-- `FP2_NEG z2, z0`. -/
theorem test_fp2Neg_keeps_zero :
    fAfter 0x7c400000 (putF State.reset 0 [0, 1]) 4 2 = some [0, 0xcd07ffe] := by
  decide +kernel

/-- `FP2_EQ w3, z0, z1`. -/
theorem test_fp2Eq_imaginary_differs :
    wAfter 0x80300200 (putF State.reset 0 [1, 2, 1, 3]) 3 = some 0 := by
  decide +kernel

/-- `FP2_EQ w3, z0, z1`. -/
theorem test_fp2Eq_equal :
    wAfter 0x80300200 (putF State.reset 0 [0x1234567, 0xabcdef0, 0x1234567, 0xabcdef0]) 3 = some 1 := by
  decide +kernel

/-- `FP2_SQRT z2, z0`. -/
theorem test_fp2Sqrt_of_odd_residue :
    fAfter 0x84400000 (putF State.reset 0 [1, 0]) 4 2 = some [0, 0] := by
  decide +kernel

/-- `FP2_SQRT z2, z0`. -/
theorem test_fp2Sqrt_of_complex :
    fAfter 0x84400000 (putF State.reset 0 [0x1234567, 0xabcdef0]) 4 2 = some [0x18f5c98, 0xc333d2f] := by
  decide +kernel

/-- `PT_ISINF w3, q1`. -/
theorem test_ptIsinf_of_sentinel :
    wAfter 0xa0310000 (putF State.reset 4 infWords) 3 = some 1 := by
  decide +kernel

/-- `PT_ISINF w3, q1`. -/
theorem test_ptIsinf_reads_all_four_words :
    wAfter 0xa0310000 (putF State.reset 4 [0, 0, 1, 1]) 3 = some 0 := by
  decide +kernel

/-- `XDBL q3, q0, q1`. -/
theorem test_xdbl_doubles :
    fAfter 0xa4c00400 (putF State.reset 0 (curveE ++ pointP)) 12 4 = some [0x32e372e, 0x870ed40, 0xc69c320, 0x7da8e5f] := by
  decide +kernel

/-- `XDBL q1, q0, q1`. -/
theorem test_xdbl_in_place :
    fAfter 0xa4400400 (putF State.reset 0 (curveE ++ pointP)) 4 4 = some [0x32e372e, 0x870ed40, 0xc69c320, 0x7da8e5f] := by
  decide +kernel

/-- `XADD q3, q0, q1, q2`. -/
theorem test_xadd_chord :
    fAfter 0xa8c00408 (putF State.reset 0 (curveE ++ pointP ++ pointQ)) 12 4 = some [0xc0a8a6a, 0xc777416, 0xb7f1563,
        0x6c09472] := by
  decide +kernel

/-- `XADD q3, q0, q1, q2`. -/
theorem test_xadd_of_opposites :
    fAfter 0xa8c00408 (putF State.reset 0 (curveE ++ pointP ++ [4, 1, 0xaa19235, 0xa020585])) 12 4 = some infWords := by
  decide +kernel

/-- `XTPL q3, q0, q1`. -/
theorem test_xtpl_triples :
    fAfter 0xacc00400 (putF State.reset 0 (curveE ++ pointP)) 12 4 = some [0x74936f1, 0x5f3c24e, 0xb9bc9b6, 0xb595451] := by
  decide +kernel

/-- `XTPL q3, q0, q1`. -/
theorem test_xtpl_of_order_two :
    fAfter 0xacc00400 (putF State.reset 0 (curveE ++ kernel2)) 12 4 = some kernel2 := by
  decide +kernel

/-- `XDBLE q3, q0, q1, 2`. -/
theorem test_xdble_twice :
    fAfter 0xb0c00402 (putF State.reset 0 (curveE ++ pointP)) 12 4 = some [0xb0ec634, 0x41cf4f1, 0x6c986fb, 0xa1d8ca1] := by
  decide +kernel

/-- `XDBLE q3, q0, q1, 0`. -/
theorem test_xdble_count_zero :
    fAfter 0xb0c00400 (putF State.reset 0 (curveE ++ pointP)) 12 4 = some pointP := by
  decide +kernel

/-- `XTPLE q3, q0, q1, 2`. -/
theorem test_xtple_twice :
    fAfter 0xb4c00402 (putF State.reset 0 (curveE ++ pointP)) 12 4 = some [0xbeece3c, 0x4501ce9, 0x9f1fd57, 0x4b81db7] := by
  decide +kernel

/-- `XTPLE q3, q0, q1, 0`. -/
theorem test_xtple_count_zero :
    fAfter 0xb4c00400 (putF State.reset 0 (curveE ++ pointP)) 12 4 = some pointP := by
  decide +kernel

/-- `LADDER q3, q0, q1, w2, 15`. -/
theorem test_ladder_ignores_high_bits :
    fAfter 0xb8c0044f (putW (putF State.reset 0 (curveE ++ pointP)) 2 0x8003) 12 4 = some [0x74936f1, 0x5f3c24e,
        0xb9bc9b6, 0xb595451] := by
  decide +kernel

/-- `LADDER q3, q0, q1, w2, 0`. -/
theorem test_ladder_width_zero :
    fAfter 0xb8c00440 (putW (putF State.reset 0 (curveE ++ pointP)) 2 5) 12 4 = some infWords := by
  decide +kernel

/-- `JINV z4, q0`. -/
theorem test_jinv_of_complex_curve :
    fAfter 0xbc800000 (putF State.reset 0 [0x1234567, 0xabcdef0, 1, 0]) 8 2 = some [0xc26514b, 0x214858a] := by
  decide +kernel

/-- `JINV z4, q0`. -/
theorem test_jinv_of_singular_curve :
    fAfter 0xbc800000 (putF State.reset 0 [2, 0, 1, 0]) 8 2 = some [0, 0] := by
  decide +kernel

/-- `CURVE2ISO q3, q1, q0`. -/
theorem test_curve2iso_maps :
    fAfter 0xc0c10000 (putF State.reset 0 (curveE ++ kernel2)) 12 4 = some [0xcc14fbd, 0, 0xccfddfc, 0] := by
  decide +kernel

/-- `CURVE2ISO q3, q1, q0`. -/
theorem test_curve2iso_of_zero_abscissa :
    fAfter 0xc0c10000 (putF State.reset 0 (curveE ++ [0, 0, 0, 0])) 12 4 = some [2, 0, 0, 0] := by
  decide +kernel

/-- `EVAL2ISO q3, q1, q2`. -/
theorem test_eval2iso_maps :
    fAfter 0xc4c10800 (putF State.reset 4 (kernel2 ++ pointP)) 12 4 = some [0x65514b6, 0x1a00b3c, 0x912acff, 0x1c1aa8f] := by
  decide +kernel

/-- `EVAL2ISO q3, q1, q2`. -/
theorem test_eval2iso_of_kernel_point :
    fAfter 0xc4c10800 (putF State.reset 4 (kernel2 ++ kernel2)) 12 4 = some infWords := by
  decide +kernel

/-- `CURVE3ISO q3, q1, q0`. -/
theorem test_curve3iso_maps :
    fAfter 0xc8c10000 (putF State.reset 0 (curveE ++ kernel3)) 12 4 = some [0x45970cf, 0x6bc97d, 0x9070e2e, 0x6575113] := by
  decide +kernel

/-- `EVAL3ISO q3, q1, q2`. -/
theorem test_eval3iso_maps :
    fAfter 0xccc10800 (putF State.reset 4 (kernel3 ++ pointP)) 12 4 = some [0xae45572, 0x56ca6df, 0x3552332, 0xaf7ca50] := by
  decide +kernel

/-- `EVAL3ISO q3, q1, q2`. -/
theorem test_eval3iso_of_minus_kernel :
    fAfter 0xccc10800 (putF State.reset 4 (kernel3 ++ [0x364e5bf, 0xa23e469, 0x9f13325, 0x2225649])) 12 4 = some infWords
        := by
  decide +kernel

/-- `CURVE4ISO q3, q1, q0`. -/
theorem test_curve4iso_maps :
    fAfter 0xd0c10000 (putF State.reset 0 (curveE ++ kernel4)) 12 4 = some [0x2fa6497, 0, 0x800c704, 0] := by
  decide +kernel

/-- `CURVE4ISO q3, q1, q0`. -/
theorem test_curve4iso_of_one :
    fAfter 0xd0c10000 (putF State.reset 0 (curveE ++ [1, 0, 5, 5])) 12 4 = some [2, 0, 0xcd07ffe, 0] := by
  decide +kernel

/-- `EVAL4ISO q3, q1, q2`. -/
theorem test_eval4iso_maps :
    fAfter 0xd4c10800 (putF State.reset 4 (kernel4 ++ pointP)) 12 4 = some [0x6a3f305, 0x73b597d, 0x8982016, 0x25770ad] := by
  decide +kernel

/-- `EVAL4ISO q3, q1, q2`. -/
theorem test_eval4iso_of_twice_kernel :
    fAfter 0xd4c10800 (putF State.reset 4 (kernel4 ++ kernel2)) 12 4 = some infWords := by
  decide +kernel

/-- `ISO2E q0, q1, q2, 3, 3`. -/
theorem test_iso2e_odd_length_both_points :
    fAfter 0xd80108c3 (putF State.reset 0 (curveE ++ kernel8 ++ pointP ++ pointQ)) 0 16 = some ([0x5a26c49, 0, 0x928fc84,
        0] ++ infWords ++ [0x81efe6e, 0x4f195bd, 0x7bc5f04, 0x8dba66f, 0x137147a, 0x826120b, 0xc1bbb39, 0x309c7ad]) := by
  decide +kernel

/-- `ISO2E q0, q1, q2, 3, 2`. -/
theorem test_iso2e_second_point_only :
    fAfter 0xd8010883 (putF State.reset 0 (curveE ++ kernel8 ++ pointP ++ pointQ)) 0 16 = some ([0x5a26c49, 0, 0x928fc84,
        0] ++ infWords ++ pointP ++ [0x137147a, 0x826120b, 0xc1bbb39, 0x309c7ad]) := by
  decide +kernel

/-- `ISO3E q0, q1, q2, 2, 0`. -/
theorem test_iso3e_no_points :
    fAfter 0xdc010802 (putF State.reset 0 (curveE ++ kernel9 ++ pointP ++ pointQ)) 0 16 = some ([0x4175189, 0xb3f1d21,
        0x1a87365, 0x74cbd87] ++ infWords ++ pointP ++ pointQ) := by
  decide +kernel

/-- `ISO3E q0, q1, q2, 2, 3`. -/
theorem test_iso3e_both_points :
    fAfter 0xdc0108c2 (putF State.reset 0 (curveE ++ kernel9 ++ pointP ++ pointQ)) 0 16 = some ([0x4175189, 0xb3f1d21,
        0x1a87365, 0x74cbd87] ++ infWords ++ [0xacf33e4, 0x31fd4fa, 0x1f7c817, 0xb43e806, 0x1e82ce4, 0x5e681a8,
        0x7e702a5, 0x94feef5]) := by
  decide +kernel

/-- `ISOGEN2 z0, w1`. -/
theorem test_isogen2_key_of_three :
    fAfter 0xe8004000 (putW withTestBank 1 3) 0 6 = some [0x670fe52, 0x5ae0906, 0x87b7580, 0x1b71203, 0x8f6d074,
        0x29477fe] := by
  decide +kernel

/-- `ISOGEN3 z0, w1`. -/
theorem test_isogen3_key_of_seven :
    fAfter 0xec004000 (putW withTestBank 1 7) 0 6 = some [0x103ebfd, 0x3f7bdab, 0x3d84f93, 0xcc0004d, 0x96bc1bb,
        0xc6f8d02] := by
  decide +kernel

/-- `ISOEX2 z8, z0, w1`. -/
theorem test_isoex2_shared_secret :
    fAfter 0xf1000100 (lock (putW (putF State.reset 0 [0x103ebfd, 0x3f7bdab, 0x3d84f93, 0xcc0004d, 0x96bc1bb, 0xc6f8d02])
        1 3)) 16 2 = some [0x208ca77, 0x1dc50c1] := by
  decide +kernel

/-- `ISOEX3 z8, z0, w1`. -/
theorem test_isoex3_shared_secret :
    fAfter 0xf5000100 (lock (putW (putF State.reset 0 [0x670fe52, 0x5ae0906, 0x87b7580, 0x1b71203, 0x8f6d074, 0x29477fe])
        1 7)) 16 2 = some [0x208ca77, 0x1dc50c1] := by
  decide +kernel

/-- `GETXR z8, q0, q1, q2`. -/
theorem test_getxr_key :
    fAfter 0xe1000408 (putF State.reset 0 (curveE ++ pointP ++ pointQ)) 16 6 = some [4, 1, 1, 1, 0x39ef59f, 0x8e40bfd] := by
  decide +kernel

/-- `GETXR z1, q0, q1, q2`. -/
theorem test_getxr_over_its_curve :
    fAfter 0xe0200408 (putF State.reset 0 (curveE ++ pointP ++ pointQ)) 2 6 = some [4, 1, 1, 1, 0x39ef59f, 0x8e40bfd] := by
  decide +kernel

/-- `RECOVER q5, z8`. -/
theorem test_recover_restores :
    fAfter 0xe5440000 (putF State.reset 16 [4, 1, 1, 1, 0x39ef59f, 0x8e40bfd]) 20 12 = some (curveE ++ pointP ++ pointQ)
        := by
  decide +kernel

/-- `RECOVER q0, z0`. -/
theorem test_recover_over_its_key :
    fAfter 0xe4000000 (putF State.reset 0 [0x103ebfd, 0x3f7bdab, 0x3d84f93, 0xcc0004d, 0x96bc1bb, 0xc6f8d02]) 0 12 = some
        [0x81bba58, 0x43166f1, 1, 0, 0x103ebfd, 0x3f7bdab, 0x337ba42, 0x308275b, 0x3d84f93, 0xcc0004d, 0x5fb75bb,
        0xaa1c7d] := by
  decide +kernel


/-! ### Witnesses: for every statement with hypotheses, a state and operands that meet them -/

/-- `E`, `P` and `Q` of `95_test_vectors.md` in `q[0]`, `q[4]` and `q[8]`. -/
def sample : State := putF (putF (putF State.reset 0 curveE) 4 pointP) 8 pointQ

theorem sample_reduced : sample.Reduced := by unfold State.Reduced; decide +kernel
theorem withTestBank_reduced : withTestBank.Reduced := by unfold State.Reduced; decide +kernel
theorem lock_reduced {s : State} (h : s.Reduced) : (lock s).Reduced := h
theorem putW_reduced {s : State} (h : s.Reduced) (r v : Nat) : (putW s r v).Reduced := h

/-- A reset state whose `z[0]` is the given pair, both words below `p`. -/
theorem putF_reduced (a b : Nat) (ha : a < Config.p) (hb : b < Config.p) : (putF State.reset 0 [a, b]).Reduced := by
  have h0 : State.reset.Reduced := by unfold State.Reduced; decide +kernel
  exact State.Reduced.writeF (State.Reduced.writeF h0 0 ha) 1 hb

theorem not_decoded {c : Word} {e : DecodeError} (h : decode c = .error e) (i : Instr) : decode c ≠ .ok i := by
  rw [h]; exact fun h' => nomatch h'

theorem witness_EncodeAfterDecode : ∃ (c : Word) (i : Instr), decode c = .ok i := ⟨0x2c200100, .fpMul 2 0 1, by decide⟩

theorem witness_RowsSelectCommands_row : ∃ (c : Word) (row : String × Word × Word),
    row ∈ opcodeRows ∧ rowSelects row c = true := ⟨0xdfffffff, ("ISO3E", 0xdc000000, 0xfc000000), by decide⟩
theorem witness_RowsSelectCommands_none : ∃ (s : State) (c : Word),
    s.fault = false ∧ ∀ row ∈ opcodeRows, rowSelects row c = false := ⟨State.reset, 0x08000001, rfl, by decide⟩
theorem witness_RowsSelectCommands_illegal : ∃ (s : State) (c : Word) (i : Instr),
    s.fault = false ∧ decode c = .ok i ∧ ¬ i.WellFormed := ⟨State.reset, 0x70100200, .fp2Mul 1 0 2, by decide⟩
theorem witness_ReservedOpcodes : ∃ (s : State) (c : Word),
    s.fault = false ∧ c.extractLsb' 26 6 ∈ ([0x00, 0x3f] : List (BitVec 6)) := ⟨State.reset, 0xffffffff, by decide⟩

theorem witness_StepRunsDecodedCommand : ∃ (s : State) (c : Word) (i : Instr) (rest : List HostEvent),
    s.pending = .portWrite 0x00 c :: rest ∧ s.fault = false ∧ decode c = .ok i :=
  ⟨{ State.reset with pending := [.portWrite 0x00 0x2c200100] }, 0x2c200100, .fpMul 2 0 1, [], by decide⟩
theorem witness_StepRunsPlacedWord : ∃ (s : State) (w : Nat) (i : Instr),
    decodeTableWord 32 w = some i ∧ s.fault = false := ⟨State.reset, 0x08000000, .plock, by decide⟩
theorem witness_StepTakesOneTransaction_idle : ∃ s : State, s.pending = [] := ⟨State.reset, rfl⟩
theorem witness_StepTakesOneTransaction : ∃ (s t : State) (e : HostEvent) (rest : List HostEvent),
    s.pending = e :: rest ∧ step s = .next t :=
  ⟨{ State.reset with pending := [.portRead 0x01] }, _, _, _, rfl, rfl⟩

theorem witness_StepKeepsInvariant : ∃ s t : State, s.Inv ∧ step s = .next t :=
  ⟨State.reset, State.reset, ⟨by unfold State.Reduced; decide +kernel, fun _ => ⟨rfl, rfl⟩, fun h => nomatch h⟩, rfl⟩
/-- A state with a recorded fault meets the invariant too. -/
theorem witness_StepKeepsInvariant_faulted : ∃ s t : State, s.fault = true ∧ s.Inv ∧ step s = .next t :=
  ⟨State.reset.faultEntry .illegalOperand 0x70100200, State.reset.faultEntry .illegalOperand 0x70100200, rfl,
    ⟨by unfold State.Reduced; decide +kernel, fun h => absurd h (by decide),
      fun _ => Or.inr (Or.inl ⟨rfl, .fp2Mul 1 0 2, by decide, by decide⟩)⟩, rfl⟩

theorem witness_CommandAcceptanceOrder_ignored : ∃ s : State, s.fault = true := ⟨faulted State.reset, rfl⟩
theorem witness_CommandAcceptanceOrder_undecoded : ∃ (s : State) (c : Word), s.fault = false ∧ ∀ i, decode c ≠ .ok i :=
  ⟨State.reset, 0x00000000, rfl, not_decoded (e := .reservedOpcode 0) (by decide)⟩
theorem witness_CommandAcceptanceOrder_setup : ∃ (s : State) (c : Word) (i : Instr),
    s.fault = false ∧ decode c = .ok i ∧ i.WellFormed ∧ isSetup i = true ∧ s.locked = true :=
  ⟨lock State.reset, 0x08000000, .plock, by decide⟩
theorem witness_CommandAcceptanceOrder_protocol : ∃ (s : State) (c : Word) (i : Instr),
    s.fault = false ∧ decode c = .ok i ∧ i.WellFormed ∧ isProtocol i = true ∧ s.locked = false :=
  ⟨State.reset, 0xe8004000, .isogen2 0 1, by decide⟩
theorem witness_CommandAcceptanceOrder_scalar : ∃ (s : State) (c : Word) (i : Instr) (ws : WReg) (bound : Nat),
    s.fault = false ∧ decode c = .ok i ∧ i.WellFormed ∧ scalarDemand i = some (ws, bound) ∧ s.locked = true ∧
    (s.wWord ws.toNat).toNat = bound :=
  ⟨lock (putW State.reset 1 0x1000), 0xec004000, .isogen3 0 1, 1, 4096, by decide +kernel⟩
theorem witness_CommandAcceptanceOrder_executes : ∃ (s : State) (c : Word) (i : Instr),
    s.fault = false ∧ decode c = .ok i ∧ i.WellFormed ∧ (isSetup i = true → s.locked = false) ∧
    (isProtocol i = true → s.locked = true) ∧ scalarDemand i = some (1, 32768) ∧ (s.wWord 1).toNat = 32767 :=
  ⟨lock (putW State.reset 1 0x7fff), 0xe8004000, .isogen2 0 1, by decide +kernel⟩
theorem witness_FaultEntryIsPrecise : ∃ (s t : State) (c : Word),
    s.fault = false ∧ commandWrite c s = .next t ∧ t.fault = true :=
  ⟨State.reset, State.reset.faultEntry .illegalCommand 0, 0, rfl, rfl, rfl⟩
theorem witness_SetupFaultsWhenLocked : ∃ (s : State) (slot : Slot) (ws : WReg),
    s.fault = false ∧ s.locked = true ∧ slot.toNat = 19 ∧ ws.toNat = 7 := ⟨lock State.reset, 19, 7, by decide⟩
theorem witness_ProtocolFaultsWhenUnlocked : ∃ (s : State) (i : Instr),
    isProtocol i = true ∧ i.WellFormed ∧ s.fault = false ∧ s.locked = false :=
  ⟨State.reset, .isoex3 62 58 7, by decide⟩
theorem witness_ScalarRangeFault_2 : ∃ (s : State) (zd : PkReg) (zj : ZReg) (ws : WReg), s.fault = false ∧ s.locked = true ∧
    (Instr.isogen2 zd ws).WellFormed ∧ (Instr.isoex2 zj zd ws).WellFormed ∧ 2 ^ 15 = (s.wWord ws.toNat).toNat :=
  ⟨lock (putW State.reset 7 0x8000), 58, 62, 7, by decide +kernel⟩
theorem witness_ScalarRangeFault_3 : ∃ (s : State) (zd : PkReg) (zj : ZReg) (ws : WReg), s.fault = false ∧ s.locked = true ∧
    (Instr.isogen3 zd ws).WellFormed ∧ (Instr.isoex3 zj zd ws).WellFormed ∧ 2 ^ 12 = (s.wWord ws.toNat).toNat :=
  ⟨lock (putW State.reset 7 0x1000), 58, 62, 7, by decide +kernel⟩

theorem not_reset_event : ¬ IsResetEvent (.portWrite 0x05 0xfffffffe) := by
  rintro (h | ⟨v, h, hv⟩)
  · exact nomatch h
  · injection h with _ h; subst h; exact absurd hv (by decide)
theorem reset_event : IsResetEvent (.portWrite 0x05 1) := .inr ⟨1, rfl, by decide⟩

theorem witness_FaultStaysUntilReset : ∃ (s : State) (e : HostEvent), s.fault = true ∧ ¬ IsResetEvent e :=
  ⟨faulted State.reset, _, rfl, not_reset_event⟩
theorem witness_FaultStaysUntilReset_reset : ∃ (s : State) (e : HostEvent), s.fault = true ∧ IsResetEvent e :=
  ⟨faulted State.reset, .powerOn, rfl, .inl rfl⟩
theorem witness_UngatedCommandsComplete : ∃ i : Instr, i.WellFormed ∧ isSetup i = false ∧ isProtocol i = false :=
  ⟨.iso2e 0 4 56 true true 63, by decide⟩
theorem witness_LockedBankStays : ∃ (s t : State) (e : HostEvent),
    s.locked = true ∧ hostEvent e s = .next t ∧ ¬ IsResetEvent e :=
  ⟨lock State.reset, lock State.reset, _, rfl, rfl, not_reset_event⟩
theorem witness_LockedBankStays_reset : ∃ (s t : State) (e : HostEvent),
    s.locked = true ∧ hostEvent e s = .next t ∧ IsResetEvent e :=
  ⟨lock State.reset, State.reset, _, rfl, rfl, reset_event⟩
theorem witness_BankWrittenOnlyByPrmConst : ∃ (s t : State) (e : HostEvent),
    s.locked = false ∧ hostEvent e s = .next t ∧ t.prm ≠ s.prm :=
  ⟨putW State.reset 7 5, (putW State.reset 7 5).writePrm 19 5, .portWrite 0x00 0x0531c000, rfl, rfl, by decide +kernel⟩
theorem witness_BankWrittenOnlyByPrmConst_reset : ∃ (s t : State) (e : HostEvent),
    hostEvent e s = .next t ∧ t.prm ≠ s.prm :=
  ⟨State.reset.writePrm 0 5, State.reset, .powerOn, rfl, by decide +kernel⟩
theorem witness_BankReadOnlyByIsogen : ∃ (s t : State) (i : Instr), (∀ zd ws, i ≠ .isogen2 zd ws) ∧
    (∀ zd ws, i ≠ .isogen3 zd ws) ∧ (∀ slot ws, i ≠ .prmConst slot ws) ∧ exec i s = .next t :=
  ⟨State.reset, lock State.reset, .plock, fun _ _ h => (nomatch h), fun _ _ h => (nomatch h), fun _ _ h => (nomatch h), rfl⟩

/-- The last port of each file of registers. -/
theorem witness_PortReadsFollowMap : (0x17 : BitVec 8).toNat = 0x10 + 7 ∧ (0x7f : BitVec 8).toNat = 0x40 + 63 ∧
    (0x93 : BitVec 8).toNat = 0x80 + 19 := by decide
theorem witness_HostWritesIntegerRegister : ∃ pa : BitVec 8, pa ≠ 0x00 ∧ pa ≠ 0x05 ∧ ∀ k, k < 8 → pa.toNat ≠ 0x10 + k :=
  ⟨0x18, by decide⟩
/-- The ends of the read-only ranges, and the unmapped addresses next to them. -/
theorem witness_UnmappedAndWrongDirection :
    (∀ pa ∈ ([0x01, 0x04, 0x40, 0x7f, 0x80, 0x93] : List (BitVec 8)),
      (0x01 ≤ pa.toNat ∧ pa.toNat ≤ 0x04) ∨ (0x40 ≤ pa.toNat ∧ pa.toNat ≤ 0x7f) ∨ (0x80 ≤ pa.toNat ∧ pa.toNat ≤ 0x93)) ∧
    (∀ pa ∈ ([0x06, 0x0f, 0x18, 0x3f, 0x94, 0xff] : List (BitVec 8)),
      ¬ ((0x01 ≤ pa.toNat ∧ pa.toNat ≤ 0x04) ∨ (0x40 ≤ pa.toNat ∧ pa.toNat ≤ 0x7f) ∨
        (0x80 ≤ pa.toNat ∧ pa.toNat ≤ 0x93)) ∧
      pa.toNat ≠ 0x00 ∧ pa.toNat ≠ 0x05 ∧ ¬ (0x10 ≤ pa.toNat ∧ pa.toNat ≤ 0x17)) := by decide
theorem witness_CtrlPort : ∃ v u : Word, v.getLsbD 0 = true ∧ u.getLsbD 0 = false := ⟨3, 0xfffffffe, by decide⟩
theorem witness_ResetValues : ∃ e e' : HostEvent, e ≠ e' ∧ IsResetEvent e ∧ IsResetEvent e' :=
  ⟨.powerOn, .portWrite 0x05 1, by decide, .inl rfl, reset_event⟩
theorem witness_SetupCommandResults : ∃ (s : State) (slot : Slot) (ws : WReg),
    s.locked = false ∧ slot.toNat = 19 ∧ ws.toNat = 7 := ⟨State.reset, 19, 7, by decide⟩

theorem witness_FpArithmeticResults : ∃ (s : State) (ws : WReg), s.Reduced ∧ ws.toNat = 7 := ⟨sample, 7, sample_reduced, rfl⟩
theorem witness_FpPowerResults : ∃ ws : WReg, ws.toNat = 7 := ⟨7, rfl⟩
theorem witness_FpPredicateResults : ∃ (s : State) (wd : WReg) (bit : BitVec 8),
    wd.toNat = 7 ∧ s.Reduced ∧ bit.toNat = 28 := ⟨sample, 7, 28, rfl, sample_reduced, rfl⟩
theorem witness_FpUnitLaws : ∃ a : Nat, a < 0x0cd07fff ∧ a ≠ 0 ∧ a + 1 = 0x0cd07fff := ⟨0x0cd07ffe, by decide⟩

theorem five_not_square : ¬ IsSquare ((5 : Nat) : ZMod Config.p) := by
  have h : jacobiSym 5 Config.p = -1 := by unfold Config.p; norm_num
  exact_mod_cast ZMod.nonsquare_of_jacobiSym_eq_neg_one h

theorem witness_FpRootsAndResidues_square : ∃ (s : State) (fa : FReg) (wd : WReg), s.Reduced ∧ wd.toNat ≤ 7 ∧
    IsSquare (((s.fWord fa.toNat).toNat : Nat) : ZMod Config.p) := by
  refine ⟨putF State.reset 0 [4, 0], 0, 7, putF_reduced 4 0 (by decide) (by decide), by decide, 2, ?_⟩
  rw [show ((putF State.reset 0 [4, 0]).fWord (0 : FReg).toNat).toNat = 4 by decide +kernel]
  norm_num
theorem witness_FpRootsAndResidues_nonsquare : ∃ (s : State) (fa : FReg) (wd : WReg), s.Reduced ∧ wd.toNat ≤ 7 ∧
    ¬ IsSquare (((s.fWord fa.toNat).toNat : Nat) : ZMod Config.p) := by
  refine ⟨putF State.reset 0 [5, 0], 0, 7, putF_reduced 5 0 (by decide) (by decide), by decide, ?_⟩
  rw [show ((putF State.reset 0 [5, 0]).fWord (0 : FReg).toNat).toNat = 5 by decide +kernel]
  exact five_not_square

/-- The last pairs, quads, keys and triples of `f` are legal operands. -/
theorem witness_Fp2Results : ∃ (s : State) (z z' : ZReg) (w : WReg), s.Reduced ∧ (Instr.fp2Add z z' z).WellFormed ∧
    (Instr.fp2Sub z z' z).WellFormed ∧ (Instr.fp2Neg z z').WellFormed ∧ (Instr.fp2Const z w).WellFormed ∧
    (Instr.fp2Constp z w w).WellFormed ∧ (Instr.fp2Eq w z z').WellFormed ∧ (Instr.fp2Mul z z' z).WellFormed ∧
    (Instr.fp2Sqr z z').WellFormed ∧ (Instr.fp2Inv z z').WellFormed := ⟨sample, 62, 2, 7, sample_reduced, by decide⟩
theorem witness_Fp2InvResult : ∃ (s : State) (za : ZReg), s.Reduced ∧ s.readZ za.toNat ≠ ⟨0, 0⟩ ∧ s.readZ 62 = ⟨0, 0⟩ :=
  ⟨sample, 0, sample_reduced, by decide +kernel⟩
theorem witness_Fp2UnitIsTheField : ∃ a b : Fp2, Reduced2 a ∧ Reduced2 b ∧ toField b ≠ 0 ∧ toField ⟨0, 0⟩ = 0 ∧
    toField a = toField b := ⟨⟨3, 4⟩, ⟨3, 4⟩, by unfold Reduced2; decide, by unfold Reduced2; decide, by decide +kernel, by decide +kernel, rfl⟩

theorem witness_Fp2SqrtOfReal : ∀ a ∈ [0, 1, 2, 5], ∃ (s : State) (zd za : ZReg), s.Reduced ∧
    (Instr.fp2Sqrt zd za).WellFormed ∧ s.readZ za.toNat = ⟨a, 0⟩ := by
  intro a ha
  simp only [List.mem_cons, List.not_mem_nil, or_false] at ha
  rcases ha with rfl | rfl | rfl | rfl
  · exact ⟨putF State.reset 0 [0, 0], 4, 0, putF_reduced _ _ (by decide) (by decide), by decide, by decide +kernel⟩
  · exact ⟨putF State.reset 0 [1, 0], 4, 0, putF_reduced _ _ (by decide) (by decide), by decide, by decide +kernel⟩
  · exact ⟨putF State.reset 0 [2, 0], 4, 0, putF_reduced _ _ (by decide) (by decide), by decide, by decide +kernel⟩
  · exact ⟨putF State.reset 0 [5, 0], 4, 0, putF_reduced _ _ (by decide) (by decide), by decide, by decide +kernel⟩
/-- The three classes of a real operand that is not zero: 1 is an odd square, 2 an even one, 5 none. -/
theorem witness_Fp2SqrtOfReal_classes : IsSquare ((1 : Nat) : ZMod Config.p) ∧ IsSquare ((2 : Nat) : ZMod Config.p) ∧
    ¬ IsSquare ((5 : Nat) : ZMod Config.p) :=
  ⟨⟨1, by norm_num⟩, ⟨((0x00005100 : Nat) : ZMod Config.p), by decide +kernel⟩, five_not_square⟩
theorem witness_Fp2SqrtOfComplex_square : ∃ (s : State) (zd za : ZReg), s.Reduced ∧ (Instr.fp2Sqrt zd za).WellFormed ∧
    (s.readZ za.toNat).x1 ≠ 0 ∧
    IsSquare (((s.readZ za.toNat).x0 : ZMod Config.p) ^ 2 + ((s.readZ za.toNat).x1 : ZMod Config.p) ^ 2) := by
  have h : (putF State.reset 0 [3, 4]).readZ (0 : ZReg).toNat = ⟨3, 4⟩ := by decide +kernel
  refine ⟨putF State.reset 0 [3, 4], 4, 0, putF_reduced 3 4 (by decide) (by decide), by decide, ?_, ?_⟩
  · rw [h]; decide
  · rw [h]; exact ⟨5, by norm_num⟩
theorem witness_Fp2SqrtOfComplex_nonsquare : ∃ (s : State) (zd za : ZReg), s.Reduced ∧ (Instr.fp2Sqrt zd za).WellFormed ∧
    (s.readZ za.toNat).x1 ≠ 0 ∧
    ¬ IsSquare (((s.readZ za.toNat).x0 : ZMod Config.p) ^ 2 + ((s.readZ za.toNat).x1 : ZMod Config.p) ^ 2) := by
  have h : (putF State.reset 0 [2, 1]).readZ (0 : ZReg).toNat = ⟨2, 1⟩ := by decide +kernel
  refine ⟨putF State.reset 0 [2, 1], 4, 0, putF_reduced 2 1 (by decide) (by decide), by decide, ?_, ?_⟩
  · rw [h]; decide
  · rw [h]
    have e : (((2 : Nat) : ZMod Config.p) ^ 2 + ((1 : Nat) : ZMod Config.p) ^ 2) = ((5 : Nat) : ZMod Config.p) := by
      push_cast; norm_num
    simpa only [e] using five_not_square

theorem witness_PointResults : ∃ (s : State) (q q' : QReg) (qb : QcReg) (n : BitVec 8) (ws : BitVec 3) (msb : BitVec 5)
    (z : ZReg) (w : WReg), s.Reduced ∧ (Instr.ptIsinf w q).WellFormed ∧ (Instr.xdbl q q' q).WellFormed ∧
    (Instr.xadd q q' q qb).WellFormed ∧ (Instr.xtpl q q' q).WellFormed ∧ (Instr.xdble q q' q n).WellFormed ∧
    (Instr.xtple q q' q n).WellFormed ∧ (Instr.ladder q q' q ws msb).WellFormed ∧ (Instr.jinv z q).WellFormed ∧
    (s.wWord ws.toNat).toNat % 2 ^ msb.toNat = 0 :=
  ⟨sample, 60, 0, 60, 255, 7, 31, 62, 7, sample_reduced, by decide +kernel⟩
theorem witness_JinvResult : ∃ s t : State, toField (s.readCurve 0).a ^ 2 ≠ 4 ∧ toField (t.readCurve 0).a ^ 2 = 4 := by
  refine ⟨sample, putF State.reset 0 [2, 0], ?_, ?_⟩
  · rw [show sample.readCurve 0 = ⟨⟨6, 0⟩, ⟨1, 0⟩⟩ by decide +kernel]; decide +kernel
  · rw [show (putF State.reset 0 [2, 0]).readCurve 0 = ⟨⟨2, 0⟩, ⟨0, 0⟩⟩ by decide +kernel]; decide +kernel

/-- `E`, `P`, `Q`, `K2`, `K3` and `K4` as values. -/
def E6 : Curve := ⟨⟨6, 0⟩, ⟨1, 0⟩⟩
def ptP : Point := ⟨⟨4, 1⟩, ⟨0x22eedca, 0x2ce7a7a⟩⟩
def ptQ : Point := ⟨⟨1, 1⟩, ⟨0x7d23078, 0x604aa0⟩⟩
def ptK2 : Point := ⟨⟨0xccfddfc, 0⟩, ⟨0, 0⟩⟩
def ptK3 : Point := ⟨⟨0x364e5bf, 0xa23e469⟩, ⟨0x2df4cda, 0xaae29b6⟩⟩
def ptK4 : Point := ⟨⟨0xc74bcdc, 0⟩, ⟨0, 0xb78768⟩⟩

theorem P_onCurve : OnCurve E6 ptP := by unfold OnCurve; decide +kernel
theorem Q_onCurve : OnCurve E6 ptQ := by unfold OnCurve; decide +kernel
theorem K2_onCurve : OnCurve E6 ptK2 := by unfold OnCurve; decide +kernel
theorem E6_reduced : ReducedCurve E6 := by unfold ReducedCurve Reduced2; decide
theorem P_reduced : ReducedPoint ptP := by unfold ReducedPoint Reduced2; decide
theorem Q_reduced : ReducedPoint ptQ := by unfold ReducedPoint Reduced2; decide
theorem K2_reduced : ReducedPoint ptK2 := by unfold ReducedPoint Reduced2; decide
theorem K3_reduced : ReducedPoint ptK3 := by unfold ReducedPoint Reduced2; decide
theorem K4_reduced : ReducedPoint ptK4 := by unfold ReducedPoint Reduced2; decide

theorem witness_PointsStayOnCurve : ∃ (E : Curve) (P Q : Point), ReducedCurve E ∧ ReducedPoint P ∧ ReducedPoint Q ∧
    E.b ≠ ⟨0, 0⟩ ∧ OnCurve E P ∧ OnCurve E Q ∧ P ≠ inf ∧ P.y ≠ ⟨0, 0⟩ :=
  ⟨E6, ptP, ptQ, E6_reduced, P_reduced, Q_reduced, by decide, P_onCurve, Q_onCurve, by decide, by decide⟩
theorem witness_Eval2LandsOnImageCurve : ∃ (E : Curve) (K P : Point), ReducedCurve E ∧ ReducedPoint K ∧ ReducedPoint P ∧
    E.b ≠ ⟨0, 0⟩ ∧ OnCurve E K ∧ K.y = ⟨0, 0⟩ ∧ K.x ≠ ⟨0, 0⟩ ∧ OnCurve E P ∧ P.x ≠ K.x :=
  ⟨E6, ptK2, ptP, E6_reduced, K2_reduced, P_reduced, by decide, K2_onCurve, rfl, by decide, P_onCurve, by decide⟩
theorem witness_Eval3LandsOnImageCurve : ∃ (E : Curve) (K P : Point), ReducedCurve E ∧ ReducedPoint K ∧ ReducedPoint P ∧
    E.b ≠ ⟨0, 0⟩ ∧ 3 * toField K.x ^ 4 + 4 * toField E.a * toField K.x ^ 3 + 6 * toField K.x ^ 2 = 1 ∧
    OnCurve E P ∧ P.x ≠ K.x :=
  ⟨E6, ptK3, ptP, E6_reduced, K3_reduced, P_reduced, by decide, by decide +kernel, P_onCurve, by decide⟩

theorem witness_Eval4LandsOnImageCurve : ∃ (E : Curve) (K P : Point), ReducedCurve E ∧ ReducedPoint K ∧ ReducedPoint P ∧
    E.b ≠ ⟨0, 0⟩ ∧
    toField K.x ^ 4 + 2 * toField E.a * toField K.x ^ 3 + 6 * toField K.x ^ 2 + 2 * toField E.a * toField K.x + 1 = 0 ∧
    OnCurve E P ∧ P.x ≠ K.x ∧ eval4Denominator K.x P.x ≠ 0 :=
  ⟨E6, ptK4, ptP, E6_reduced, K4_reduced, P_reduced, by decide, by decide +kernel, P_onCurve, by decide,
    by unfold eval4Denominator; decide +kernel⟩

theorem witness_IsogenyResults : ∃ q q' : QReg, (Instr.curve2iso q q' q).WellFormed ∧ (Instr.curve3iso q q' q).WellFormed ∧
    (Instr.curve4iso q q' q).WellFormed ∧ (Instr.eval2iso q q' q).WellFormed ∧ (Instr.eval3iso q q' q).WellFormed ∧
    (Instr.eval4iso q q' q).WellFormed := ⟨60, 0, by decide⟩
/-- A kernel point at `q[4]` and, at `q[8]`, the sentinel, the kernel point, and a pole of the degree-4 map. -/
theorem witness_PointMapGuard : ∃ s s' s'' : State, s.Reduced ∧ s'.Reduced ∧ s''.Reduced ∧ s.readPoint 8 = inf ∧
    (s'.readPoint 8).x = (s'.readPoint 4).x ∧ (s''.readPoint 8).x ≠ (s''.readPoint 4).x ∧
    eval4Denominator (s''.readPoint 4).x (s''.readPoint 8).x = 0 := by
  refine ⟨putF (putF State.reset 4 kernel4) 8 infWords, putF (putF State.reset 4 kernel4) 8 kernel4,
    putF (putF State.reset 4 kernel4) 8 kernel2, ?_, ?_, ?_, by decide +kernel, by decide +kernel, by decide +kernel, ?_⟩
  · unfold State.Reduced; decide +kernel
  · unfold State.Reduced; decide +kernel
  · unfold State.Reduced; decide +kernel
  · rw [show (putF (putF State.reset 4 kernel4) 8 kernel2).readPoint 4 = ⟨⟨0xc74bcdc, 0⟩, ⟨0, 0xb78768⟩⟩ by decide +kernel,
      show (putF (putF State.reset 4 kernel4) 8 kernel2).readPoint 8 = ⟨⟨0xccfddfc, 0⟩, ⟨0, 0⟩⟩ by decide +kernel]
    unfold eval4Denominator; decide +kernel
/-- Past the guard: the points `P` at `q[4]` and `Q` at `q[8]`. -/
theorem witness_PointMapResults : ∃ s : State, s.Reduced ∧ s.readPoint 8 ≠ inf ∧
    (s.readPoint 8).x ≠ (s.readPoint 4).x ∧ eval4Denominator (s.readPoint 4).x (s.readPoint 8).x ≠ 0 := by
  refine ⟨sample, sample_reduced, by decide +kernel, by decide +kernel, ?_⟩
  rw [show sample.readPoint 4 = ptP by decide +kernel, show sample.readPoint 8 = ptQ by decide +kernel]
  unfold eval4Denominator; decide +kernel
theorem witness_WalkCommandResults : ∃ (s : State) (qc qs qa : QReg) (e : BitVec 6), s.Reduced ∧
    (Instr.iso2e qc qs qa true true e).WellFormed ∧ (Instr.iso3e qc qs qa true true e).WellFormed :=
  ⟨sample, 0, 4, 56, 63, sample_reduced, by decide⟩

theorem witness_GetxrResult : ∃ (s : State) (zd : PkReg) (qc qa : QReg) (qb : QcReg), s.Reduced ∧
    (Instr.getxr zd qc qa qb).WellFormed ∧ s.readPoint qa.toNat = s.readPoint qb.toNat :=
  ⟨sample, 58, 0, 60, 60, sample_reduced, by decide +kernel⟩
theorem witness_RecoverResult : ∃ (s : State) (qd : T3Reg) (za : PkReg), s.Reduced ∧ (Instr.recover qd za).WellFormed :=
  ⟨sample, 52, 58, sample_reduced, by decide⟩
theorem witness_IsogenResults : ∃ (s : State) (zd : PkReg) (ws : WReg), s.Reduced ∧ s.locked = true ∧
    (Instr.isogen2 zd ws).WellFormed ∧ (s.wWord ws.toNat).toNat + 1 = 2 ^ 15 ∧
    (Instr.isogen3 zd 6).WellFormed ∧ (s.wWord 6).toNat + 1 = 2 ^ 12 :=
  ⟨putW (putW withTestBank 7 0x7fff) 6 0xfff, 58, 7, putW_reduced (putW_reduced withTestBank_reduced _ _) _ _, by decide +kernel⟩
theorem witness_IsoexResults : ∃ (s : State) (zd : ZReg) (za : PkReg) (ws : WReg), s.Reduced ∧ s.locked = true ∧
    (Instr.isoex2 zd za ws).WellFormed ∧ (s.wWord ws.toNat).toNat + 1 = 2 ^ 15 ∧
    (Instr.isoex3 zd za 6).WellFormed ∧ (s.wWord 6).toNat + 1 = 2 ^ 12 :=
  ⟨putW (putW (lock sample) 7 0x7fff) 6 0xfff, 62, 58, 7, putW_reduced (putW_reduced (lock_reduced sample_reduced) _ _) _ _, by decide +kernel⟩
theorem witness_SetupSequenceLocksBank : ∃ (staticParams : Vector Word 20) (s : State),
    s.locked = false ∧ s.fault = false ∧ s.pending = setupSequence staticParams :=
  ⟨Vector.replicate 20 0xffffffff, { State.reset with pending := setupSequence (Vector.replicate 20 0xffffffff) }, rfl, rfl, rfl⟩

end Sys2Proof.Tests
end

section
/-! SUPPORT. The functions of the Fp unit are the operations of `ZMod p`, those of the Fp2 unit the operations of
`Fp[i]/(i² + 1)`: one lemma per function, which commutes it with the cast or with `toField`. -/

namespace Sys2Proof.Machine

open Config (p)

/-! ### Casts of the Fp unit into `ZMod p` -/

@[simp] theorem cast_red (v : Nat) : ((red v : Nat) : ZMod p) = v := ZMod.natCast_mod v p

@[simp] theorem cast_redInt (v : Int) : ((redInt v : Nat) : ZMod p) = v := by
  have h0 : 0 ≤ v % (p : Int) := Int.emod_nonneg v (by decide)
  calc ((redInt v : Nat) : ZMod p) = (((v % (p : Int)).toNat : Int) : ZMod p) := by rw [redInt, Int.cast_natCast]
    _ = ((v % (p : Int) : Int) : ZMod p) := by rw [Int.toNat_of_nonneg h0]
    _ = v := ZMod.intCast_mod v p

@[simp] theorem cast_fpAdd (a b : Nat) : ((fpAdd a b : Nat) : ZMod p) = a + b := by simp [fpAdd]
@[simp] theorem cast_fpSub (a b : Nat) : ((fpSub a b : Nat) : ZMod p) = a - b := by simp [fpSub]
@[simp] theorem cast_fpMul (a b : Nat) : ((fpMul a b : Nat) : ZMod p) = a * b := by simp [fpMul]
@[simp] theorem cast_fpNeg (a : Nat) : ((fpNeg a : Nat) : ZMod p) = -a := by simp [fpNeg]
@[simp] theorem cast_fpSqr (a : Nat) : ((fpSqr a : Nat) : ZMod p) = a ^ 2 := by simp [fpSqr, pow_two]

theorem two_mul_cast_fpHalf (a : Nat) : 2 * ((fpHalf a : Nat) : ZMod p) = a := by
  have h : (2 : ZMod p) * (Config.inv2 : Nat) = 1 := by decide +kernel
  rw [fpHalf, cast_fpMul, mul_left_comm, h, mul_one]

/-- The loop's invariant: the bits still to scan are the exponent modulo `2 ^ n`. -/
theorem cast_fpPowLoop (a e n r : Nat) :
    ((fpPowLoop a e n r : Nat) : ZMod p) = r ^ 2 ^ n * a ^ (e % 2 ^ n) := by
  induction n generalizing r with
  | zero => simp [fpPowLoop, Nat.mod_one]
  | succ n ih =>
    rw [fpPowLoop, ih, pow_succ 2 n, Nat.mod_mul, ← Nat.toNat_testBit, pow_add]
    cases e.testBit n with
    | false =>
      simp only [Bool.false_eq_true, if_false, cast_fpMul, Bool.toNat_false]
      ring
    | true =>
      simp only [if_true, cast_fpMul, Bool.toNat_true]
      ring

/-- `fp_pow` scans 32 bits, so it is the power for every exponent that fits a word (rule R118). -/
theorem cast_fpPow (a : Nat) {e : Nat} (he : e < 2 ^ 32) : ((fpPow a e : Nat) : ZMod p) = a ^ e := by
  rw [fpPow, cast_fpPowLoop, Nat.mod_eq_of_lt he, Nat.cast_one, one_pow, one_mul]

theorem natCast_inj_of_lt {a b : Nat} (ha : a < p) (hb : b < p) : (a : ZMod p) = b ↔ a = b := by
  rw [ZMod.natCast_eq_natCast_iff', Nat.mod_eq_of_lt ha, Nat.mod_eq_of_lt hb]

/-! ### The modulus, and the inverse in `Fp` -/

theorem prime_p : p.Prime := by
  unfold p
  norm_num

/-- `p` is 3 modulo 4, so `-1` has no root and `i² = -1` gives a field (rule R17). -/
theorem not_isSquare_neg_one : ¬ IsSquare (-1 : ZMod p) := by
  have : Fact p.Prime := ⟨prime_p⟩
  rw [ZMod.exists_sq_eq_neg_one_iff]
  decide

/-- Fermat's little theorem; at 0 both sides are 0 (rule R117). -/
@[simp] theorem cast_fpInv (a : Nat) : ((fpInv a : Nat) : ZMod p) = (a : ZMod p)⁻¹ := by
  have : Fact p.Prime := ⟨prime_p⟩
  rw [fpInv, cast_fpPow a (by decide)]
  by_cases ha : (a : ZMod p) = 0
  · rw [ha, inv_zero, zero_pow (by decide)]
  · refine eq_inv_of_mul_eq_one_left ?_
    rw [← pow_succ]
    exact ZMod.pow_card_sub_one_eq_one ha

/-! ### The Fp2 unit through `toField` -/

@[simp] theorem toField_re (z : Fp2) : (toField z).re = z.x0 := rfl
@[simp] theorem toField_im (z : Fp2) : (toField z).im = z.x1 := rfl

theorem toField_mk_zero : toField ⟨0, 0⟩ = 0 := by ext <;> simp

theorem toField_inj {a b : Fp2} (ha : Reduced2 a) (hb : Reduced2 b) (h : toField a = toField b) : a = b := by
  obtain ⟨ha0, ha1⟩ := ha
  obtain ⟨hb0, hb1⟩ := hb
  obtain ⟨h0, h1⟩ := QuadraticAlgebra.ext_iff.mp h
  exact (Fp2.mk.injEq ..).mpr ⟨(natCast_inj_of_lt ha0 hb0).mp h0, (natCast_inj_of_lt ha1 hb1).mp h1⟩

@[simp] theorem toField_fp2Add (a b : Fp2) : toField (fp2Add a b) = toField a + toField b := by
  ext <;> simp [fp2Add]

@[simp] theorem toField_fp2Sub (a b : Fp2) : toField (fp2Sub a b) = toField a - toField b := by
  ext <;> simp [fp2Sub]

@[simp] theorem toField_fp2Mul (a b : Fp2) : toField (fp2Mul a b) = toField a * toField b := by
  ext
  · simp only [fp2Mul, toField_re, toField_im, QuadraticAlgebra.re_mul, cast_fpSub, cast_fpMul]
    ring
  · simp only [fp2Mul, toField_re, toField_im, QuadraticAlgebra.im_mul, cast_fpSub, cast_fpMul, cast_fpAdd]
    ring

@[simp] theorem toField_fp2Sqr (a : Fp2) : toField (fp2Sqr a) = toField a ^ 2 := by
  rw [fp2Sqr, toField_fp2Mul, pow_two]

@[simp] theorem toField_fp2Neg (a : Fp2) : toField (fp2Neg a) = - toField a := by
  ext <;> simp [fp2Neg]

@[simp] theorem toField_k2 (n : Nat) : toField (k2 n) = (n : FieldFp2) := by
  ext <;> simp [k2]

theorem two_mul_toField_fp2Half (a : Fp2) : 2 * toField (fp2Half a) = toField a := by
  ext <;> simp [fp2Half, QuadraticAlgebra.re_ofNat, QuadraticAlgebra.im_ofNat, two_mul_cast_fpHalf]

/-! ### Inverse and division (rules R145, R151) -/

@[simp] theorem cast_fp2Norm (a : Fp2) : ((fp2Norm a : Nat) : ZMod p) = (toField a).norm := by
  simp [fp2Norm, QuadraticAlgebra.norm_def, pow_two]

/-- The inverse is the conjugate over the norm. -/
theorem toField_fp2Inv (a : Fp2) :
    toField (fp2Inv a) = ((toField a).norm)⁻¹ • star (toField a) := by
  ext <;> simp [fp2Inv, mul_comm]

theorem norm_toField_eq_zero {a : Fp2} : (toField a).norm = 0 ↔ toField a = 0 := by
  have : Fact p.Prime := ⟨prime_p⟩
  have : Fact (∀ r : ZMod p, r ^ 2 ≠ -1 + 0 * r) :=
    ⟨fun r h => not_isSquare_neg_one ⟨r, by rw [← pow_two, h, zero_mul, add_zero]⟩⟩
  exact QuadraticAlgebra.norm_eq_zero_iff_eq_zero

theorem toField_fp2Inv_mul_self {a : Fp2} (ha : toField a ≠ 0) : toField (fp2Inv a) * toField a = 1 := by
  have : Fact p.Prime := ⟨prime_p⟩
  have hn : (toField a).norm ≠ 0 := mt norm_toField_eq_zero.mp ha
  rw [toField_fp2Inv, smul_mul_assoc, mul_comm, ← QuadraticAlgebra.algebraMap_norm_eq_mul_star,
    Algebra.algebraMap_eq_smul_one, smul_smul, inv_mul_cancel₀ hn, one_smul]

theorem toField_fp2Div (a b : Fp2) : toField (fp2Div a b) = toField a * toField (fp2Inv b) :=
  toField_fp2Mul a (fp2Inv b)

theorem fp2Div_eq_zero {b : Fp2} (a : Fp2) (hb : toField b = 0) : fp2Div a b = ⟨0, 0⟩ := by
  refine toField_inj (fp2Div_reduced a b) (reduced2_mk p_pos p_pos) ?_
  rw [toField_fp2Div, toField_fp2Inv, hb, star_zero, smul_zero, mul_zero, toField_mk_zero]

theorem toField_fp2Div_mul_cancel (a : Fp2) {b : Fp2} (hb : toField b ≠ 0) :
    toField (fp2Div a b) * toField b = toField a := by
  rw [toField_fp2Div, mul_assoc, toField_fp2Inv_mul_self hb, mul_one]

/-- Settles O38: each function of the unit commutes with `toField`; division goes through the norm, which is not 0 because
`-1` is no square modulo `p`. -/
theorem fp2UnitIsTheField : Obligations.Fp2UnitIsTheField :=
  ⟨toField_fp2Add, toField_fp2Sub, toField_fp2Mul, toField_fp2Neg, toField_k2, two_mul_toField_fp2Half,
    fun a _ hb => fp2Div_eq_zero a hb, fun a _ hb => toField_fp2Div_mul_cancel a hb,
    fun _ _ ha hb h => toField_inj ha hb h⟩

end Sys2Proof.Machine
end

section
/-! SUPPORT. A word that decodes is the word of the command it selects: ERRCMD, which holds `encode i`, holds the word
that the host wrote. -/

namespace Sys2Proof

theorem whenUnusedZero_eq_ok {x : Fields} {b : Bool} {i j : Instr} :
    whenUnusedZero x b i = .ok j ↔ b = true ∧ i = j := by
  cases b <;> simp [whenUnusedZero]

/-- Every row of rule R84 puts its operands back into the fields it took them from, and zeros where it asked for zeros. -/
theorem instrFields_of_selectInstr {x : Fields} {i : Instr} (h : selectInstr x = .ok i) : instrFields i = x := by
  obtain ⟨op, rd, ra, rb, imm8⟩ := x
  simp only [selectInstr] at h
  split at h <;>
    simp only [whenUnusedZero_eq_ok, Bool.and_eq_true, beq_iff_eq, Except.ok.injEq, reduceCtorEq] at h
  all_goals
    obtain ⟨hz, rfl⟩ := h
    simp_all [instrFields, ladderImm_split, walkImm_split]

theorem encode_of_decode {c : Word} {i : Instr} (h : decode c = .ok i) : encode i = c := by
  rw [encode, instrFields_of_selectInstr h, join_split]

end Sys2Proof
end

section
/-! SUPPORT. What a command can do, said once. A command that the lock does not gate is an update of the two register
files that looks at nothing else; PRM_CONST writes the bank, PLOCK the lock, and ISOGEN2 and ISOGEN3 read the bank. -/

namespace Sys2Proof.Machine

/-! ### Updates of the register files -/

/-- `s` with the register files of `u`. -/
def State.withFiles (s u : State) : State := { s with f := u.f, w := u.w }

/-- What `v` reads from a state depends on the register files only. -/
def ReadsFiles {α : Type} (v : State → α) : Prop := ∀ s u : State, v (s.withFiles u) = v u

/-- `g` computes new register files from the register files alone, and keeps a state reduced. -/
structure FileUpdate (g : State → State) : Prop where
  files : ∀ s u : State, g (s.withFiles u) = s.withFiles (g u)
  reduced : ∀ s : State, s.Reduced → (g s).Reduced

/-- Such an update leaves every other field alone. -/
theorem FileUpdate.frame {g : State → State} (hg : FileUpdate g) (s : State) : g s = s.withFiles (g s) :=
  hg.files s s

@[simp] theorem writeF_withFiles (s u : State) (r v : Nat) :
    (s.withFiles u).writeF r v = s.withFiles (u.writeF r v) := rfl

@[simp] theorem writePredicate_withFiles (s u : State) (r : Nat) (b : Bool) :
    (s.withFiles u).writePredicate r b = s.withFiles (u.writePredicate r b) := rfl

@[simp] theorem writeZ_withFiles (s u : State) (r : Nat) (v : Fp2) :
    (s.withFiles u).writeZ r v = s.withFiles (u.writeZ r v) := by
  simp only [State.writeZ, writeF_withFiles]

@[simp] theorem writePoint_withFiles (s u : State) (r : Nat) (P : Point) :
    (s.withFiles u).writePoint r P = s.withFiles (u.writePoint r P) := by
  simp only [State.writePoint, writeZ_withFiles]

@[simp] theorem writeCurve_withFiles (s u : State) (r : Nat) (E : Curve) :
    (s.withFiles u).writeCurve r E = s.withFiles (u.writeCurve r E) := by
  simp only [State.writeCurve, writeZ_withFiles]

@[simp] theorem writePk_withFiles (s u : State) (r : Nat) (k : PublicKey) :
    (s.withFiles u).writePk r k = s.withFiles (u.writePk r k) := by
  simp only [State.writePk, writeZ_withFiles]

@[simp] theorem writeT3_withFiles (s u : State) (r : Nat) (E : Curve) (P Q : Point) :
    (s.withFiles u).writeT3 r E P Q = s.withFiles (u.writeT3 r E P Q) := by
  simp only [State.writeT3, writeCurve_withFiles, writePoint_withFiles]

@[simp] theorem writePointIf_withFiles (s u : State) (r : Nat) (P : Option Point) :
    (s.withFiles u).writePointIf r P = s.withFiles (u.writePointIf r P) := by
  cases P with
  | none => rfl
  | some P => exact writePoint_withFiles s u r P

@[simp] theorem writeWalk_withFiles (s u : State) (qc qs qa : QReg) (v : Walk) :
    (s.withFiles u).writeWalk qc qs qa v = s.withFiles (u.writeWalk qc qs qa v) := by
  simp only [State.writeWalk, writeCurve_withFiles, writePoint_withFiles, writePointIf_withFiles]

section
variable {r : Nat}

theorem fileUpdate_writeF {v : State → Nat} (hv : ReadsFiles v) (hr : ∀ s : State, s.Reduced → v s < Config.p) :
    FileUpdate fun s => s.writeF r (v s) :=
  ⟨fun s u => by rw [hv, writeF_withFiles], fun s h => h.writeF r (hr s h)⟩

theorem fileUpdate_writeZ {v : State → Fp2} (hv : ReadsFiles v) (hr : ∀ s : State, s.Reduced → Reduced2 (v s)) :
    FileUpdate fun s => s.writeZ r (v s) :=
  ⟨fun s u => by rw [hv, writeZ_withFiles], fun s h => h.writeZ r (hr s h)⟩

theorem fileUpdate_writePoint {v : State → Point} (hv : ReadsFiles v)
    (hr : ∀ s : State, s.Reduced → ReducedPoint (v s)) : FileUpdate fun s => s.writePoint r (v s) :=
  ⟨fun s u => by rw [hv, writePoint_withFiles], fun s h => h.writePoint r (hr s h)⟩

theorem fileUpdate_writeCurve {v : State → Curve} (hv : ReadsFiles v)
    (hr : ∀ s : State, s.Reduced → ReducedCurve (v s)) : FileUpdate fun s => s.writeCurve r (v s) :=
  ⟨fun s u => by rw [hv, writeCurve_withFiles], fun s h => h.writeCurve r (hr s h)⟩

theorem fileUpdate_writePk {v : State → PublicKey} (hv : ReadsFiles v)
    (hr : ∀ s : State, s.Reduced → Reduced2 (v s).xP ∧ Reduced2 (v s).xQ ∧ Reduced2 (v s).xR) :
    FileUpdate fun s => s.writePk r (v s) :=
  ⟨fun s u => by rw [hv, writePk_withFiles], fun s h => h.writePk r (hr s h).1 (hr s h).2.1 (hr s h).2.2⟩

theorem fileUpdate_writeT3 {v : State → Recovered} (hv : ReadsFiles v)
    (hr : ∀ s : State, s.Reduced → ReducedCurve (v s).E ∧ ReducedPoint (v s).P ∧ ReducedPoint (v s).Q) :
    FileUpdate fun s => s.writeT3 r (v s).E (v s).P (v s).Q :=
  ⟨fun s u => by rw [hv, writeT3_withFiles], fun s h => h.writeT3 r (hr s h).1 (hr s h).2.1 (hr s h).2.2⟩

theorem fileUpdate_writePredicate {v : State → Bool} (hv : ReadsFiles v) :
    FileUpdate fun s => s.writePredicate r (v s) :=
  ⟨fun s u => by rw [hv, writePredicate_withFiles], fun _ h => h⟩

end

theorem fileUpdate_writeWalk {qc qs qa : QReg} {v : State → Walk} (hv : ReadsFiles v)
    (hr : ∀ s : State, s.Reduced → ReducedWalk (v s)) : FileUpdate fun s => s.writeWalk qc qs qa (v s) :=
  ⟨fun s u => by rw [hv, writeWalk_withFiles], fun s h => h.writeWalk qc qs qa (hr s h)⟩

theorem getXr_reduced (E : Curve) {P Q : Point} (hP : ReducedPoint P) (hQ : ReducedPoint Q) :
    Reduced2 (getXr E P Q).xP ∧ Reduced2 (getXr E P Q).xQ ∧ Reduced2 (getXr E P Q).xR :=
  ⟨hP.1, hQ.1, (xadd_reduced E hP (ptNeg_reduced hQ)).1⟩

/-! ### The commands that the lock does not gate (rule R253) -/

/-- Each of the 41 commands that are neither setup nor protocol commands is the check of its operands followed by an
update of the register files. -/
theorem exec_ungated {i : Instr} (hs : isSetup i = false) (hp : isProtocol i = false) :
    ∃ g, FileUpdate g ∧ ∀ s, exec i s = command i s (g s) := by
  cases i with
  | prmConst => cases hs
  | plock => cases hs
  | isogen2 => cases hp
  | isogen3 => cases hp
  | isoex2 => cases hp
  | isoex3 => cases hp
  | fpConst => exact ⟨_, fileUpdate_writeF (fun _ _ => rfl) fun _ _ => fpConst_lt _, fun _ => rfl⟩
  | fpAdd => exact ⟨_, fileUpdate_writeF (fun _ _ => rfl) fun _ _ => fpAdd_lt _ _, fun _ => rfl⟩
  | fpSub => exact ⟨_, fileUpdate_writeF (fun _ _ => rfl) fun _ _ => fpSub_lt _ _, fun _ => rfl⟩
  | fpMul => exact ⟨_, fileUpdate_writeF (fun _ _ => rfl) fun _ _ => fpMul_lt _ _, fun _ => rfl⟩
  | fpNeg => exact ⟨_, fileUpdate_writeF (fun _ _ => rfl) fun _ _ => fpNeg_lt _, fun _ => rfl⟩
  | fpSqr => exact ⟨_, fileUpdate_writeF (fun _ _ => rfl) fun _ _ => fpSqr_lt _, fun _ => rfl⟩
  | fpInv => exact ⟨_, fileUpdate_writeF (fun _ _ => rfl) fun _ _ => fpInv_lt _, fun _ => rfl⟩
  | fpPow => exact ⟨_, fileUpdate_writeF (fun _ _ => rfl) fun _ _ => fpPow_lt _ _, fun _ => rfl⟩
  | fpSqrt => exact ⟨_, fileUpdate_writeF (fun _ _ => rfl) fun _ _ => fpSqrt_lt _, fun _ => rfl⟩
  | fpEq => exact ⟨_, fileUpdate_writePredicate fun _ _ => rfl, fun _ => rfl⟩
  | fpIseven => exact ⟨_, fileUpdate_writePredicate fun _ _ => rfl, fun _ => rfl⟩
  | fpBit => exact ⟨_, fileUpdate_writePredicate fun _ _ => rfl, fun _ => rfl⟩
  | fpIsqr => exact ⟨_, fileUpdate_writePredicate fun _ _ => rfl, fun _ => rfl⟩
  | fp2Const => exact ⟨_, fileUpdate_writeZ (fun _ _ => rfl) fun _ _ => ⟨fpConst_lt _, p_pos⟩, fun _ => rfl⟩
  | fp2Constp => exact ⟨_, fileUpdate_writeZ (fun _ _ => rfl) fun _ _ => ⟨fpConst_lt _, fpConst_lt _⟩, fun _ => rfl⟩
  | fp2Add => exact ⟨_, fileUpdate_writeZ (fun _ _ => rfl) fun _ _ => fp2Add_reduced _ _, fun _ => rfl⟩
  | fp2Sub => exact ⟨_, fileUpdate_writeZ (fun _ _ => rfl) fun _ _ => fp2Sub_reduced _ _, fun _ => rfl⟩
  | fp2Mul => exact ⟨_, fileUpdate_writeZ (fun _ _ => rfl) fun _ _ => fp2Mul_reduced _ _, fun _ => rfl⟩
  | fp2Sqr => exact ⟨_, fileUpdate_writeZ (fun _ _ => rfl) fun _ _ => fp2Sqr_reduced _, fun _ => rfl⟩
  | fp2Inv => exact ⟨_, fileUpdate_writeZ (fun _ _ => rfl) fun _ _ => fp2Inv_reduced _, fun _ => rfl⟩
  | fp2Neg => exact ⟨_, fileUpdate_writeZ (fun _ _ => rfl) fun _ _ => fp2Neg_reduced _, fun _ => rfl⟩
  | fp2Eq => exact ⟨_, fileUpdate_writePredicate fun _ _ => rfl, fun _ => rfl⟩
  | fp2Sqrt => exact ⟨_, fileUpdate_writeZ (fun _ _ => rfl) fun _ _ => fp2Sqrt_reduced _, fun _ => rfl⟩
  | ptIsinf => exact ⟨_, fileUpdate_writePredicate fun _ _ => rfl, fun _ => rfl⟩
  | xdbl => exact ⟨_, fileUpdate_writePoint (fun _ _ => rfl) fun _ _ => xdbl_reduced _ _, fun _ => rfl⟩
  | xadd =>
    exact ⟨_, fileUpdate_writePoint (fun _ _ => rfl) fun _ h => xadd_reduced _ (h.readPoint _) (h.readPoint _),
      fun _ => rfl⟩
  | xtpl => exact ⟨_, fileUpdate_writePoint (fun _ _ => rfl) fun _ h => xtpl_reduced _ (h.readPoint _), fun _ => rfl⟩
  | xdble => exact ⟨_, fileUpdate_writePoint (fun _ _ => rfl) fun _ h => xdble_reduced _ (h.readPoint _) _, fun _ => rfl⟩
  | xtple => exact ⟨_, fileUpdate_writePoint (fun _ _ => rfl) fun _ h => xtple_reduced _ (h.readPoint _) _, fun _ => rfl⟩
  | ladder =>
    exact ⟨_, fileUpdate_writePoint (fun _ _ => rfl) fun _ h => ladder_reduced _ (h.readPoint _) _ _, fun _ => rfl⟩
  | jinv => exact ⟨_, fileUpdate_writeZ (fun _ _ => rfl) fun _ _ => jinv_reduced _, fun _ => rfl⟩
  | curve2iso => exact ⟨_, fileUpdate_writeCurve (fun _ _ => rfl) fun _ _ => curve2iso_reduced _ _, fun _ => rfl⟩
  | eval2iso => exact ⟨_, fileUpdate_writePoint (fun _ _ => rfl) fun _ _ => eval2iso_reduced _ _, fun _ => rfl⟩
  | curve3iso => exact ⟨_, fileUpdate_writeCurve (fun _ _ => rfl) fun _ _ => curve3iso_reduced _ _, fun _ => rfl⟩
  | eval3iso => exact ⟨_, fileUpdate_writePoint (fun _ _ => rfl) fun _ _ => eval3iso_reduced _ _, fun _ => rfl⟩
  | curve4iso => exact ⟨_, fileUpdate_writeCurve (fun _ _ => rfl) fun _ _ => curve4iso_reduced _ _, fun _ => rfl⟩
  | eval4iso => exact ⟨_, fileUpdate_writePoint (fun _ _ => rfl) fun _ _ => eval4iso_reduced _ _, fun _ => rfl⟩
  | iso2e => exact ⟨_, fileUpdate_writeWalk (fun _ _ => rfl) fun _ h => iso2e_reduced _ (h.readWalk _ _ _ _ _), fun _ => rfl⟩
  | iso3e => exact ⟨_, fileUpdate_writeWalk (fun _ _ => rfl) fun _ h => iso3e_reduced _ (h.readWalk _ _ _ _ _), fun _ => rfl⟩
  | getxr =>
    exact ⟨_, fileUpdate_writePk (fun _ _ => rfl) fun _ h => getXr_reduced _ (h.readPoint _) (h.readPoint _),
      fun _ => rfl⟩
  | recover =>
    exact ⟨_, fileUpdate_writeT3 (fun _ _ => rfl) fun _ h => recover_reduced (h.readZ _) (h.readZ _), fun _ => rfl⟩

end Sys2Proof.Machine
end

section
/-! SUPPORT. The inversion lemmas of the machine: all that a command, a write to CMD and a host event can answer. -/

namespace Sys2Proof.Machine

/-! ### Commands -/

/-- The fault that the check of `cause` raises is the one due for the command `i` in `s` (rules R264 to R267). No command
is the cause of Fault(1). -/
def FaultDue (i : Instr) (s : State) : FaultCause → Prop
  | .illegalCommand => False
  | .illegalOperand => ¬ i.WellFormed
  | .parametersLocked => i.WellFormed ∧ isSetup i = true ∧ s.locked = true
  | .parametersNotSetUp => i.WellFormed ∧ isProtocol i = true ∧ s.locked = false
  | .invalidScalarRange => i.WellFormed ∧ isProtocol i = true ∧ s.locked = true

/-- All that a command `i` can answer from `s`. -/
inductive Answer (i : Instr) (s : State) : State → Prop
  | files (u : State) (keepsReduced : s.Reduced → (s.withFiles u).Reduced) : Answer i s (s.withFiles u)
  | bank (slot : Slot) (ws : WReg) (cmd : i = .prmConst slot ws) (wf : i.WellFormed) (unlocked : s.locked = false) :
      Answer i s (s.writePrm slot.toNat (fpConst (s.wWord ws.toNat)))
  | lock (cmd : i = .plock) (unlocked : s.locked = false) : Answer i s { s with locked := true }
  | fault (cause : FaultCause) (due : FaultDue i s cause) : Answer i s (s.faultEntry cause (encode i))

theorem FileUpdate.answer {g : State → State} (hg : FileUpdate g) (i : Instr) (s : State) : Answer i s (g s) := by
  have h := hg.reduced s
  rw [hg.frame s] at h ⊢
  exact .files (g s) h

theorem answer_illegalOperand {i : Instr} {s : State} (h : operandsLegal i = false) :
    Answer i s (s.faultEntry .illegalOperand (encode i)) :=
  .fault _ (by simp [FaultDue, h])

theorem answer_of_setupCommand {i : Instr} {s t u : State} (hi : isSetup i = true)
    (hu : i.WellFormed → s.locked = false → Answer i s u) (h : setupCommand i s u = .next t) : Answer i s t := by
  obtain ⟨hwf, hl, rfl⟩ | ⟨hwf, rfl⟩ | ⟨hwf, hl, rfl⟩ := setupCommand_cases h
  · exact hu hwf hl
  · exact answer_illegalOperand hwf
  · exact .fault _ ⟨hwf, hi, hl⟩

theorem answer_of_protocolCommand {i : Instr} {k bound : Nat} {s t u : State} (hi : isProtocol i = true)
    (hu : Answer i s u) (h : protocolCommand i k bound s u = .next t) : Answer i s t := by
  obtain ⟨-, -, -, rfl⟩ | ⟨hwf, rfl⟩ | ⟨hwf, hl, rfl⟩ | ⟨hwf, hl, -, rfl⟩ := protocolCommand_cases h
  · exact hu
  · exact answer_illegalOperand hwf
  · exact .fault _ ⟨hwf, hi, hl⟩
  · exact .fault _ ⟨hwf, hi, hl⟩

theorem walkKey_reduced {v : Walk} (hv : ReducedWalk v) :
    Reduced2 (walkKey v).xP ∧ Reduced2 (walkKey v).xQ ∧ Reduced2 (walkKey v).xR := by
  obtain ⟨-, -, h1, h2⟩ := hv
  have getD_reduced {o : Option Point} (h : ∀ P, o = some P → ReducedPoint P) : ReducedPoint (o.getD inf) := by
    cases o with
    | none => exact inf_reduced
    | some P => exact h P rfl
  exact getXr_reduced _ (getD_reduced h1) (getD_reduced h2)

theorem kernel_reduced (E : Curve) {P Q : Point} (hP : ReducedPoint P) (hQ : ReducedPoint Q) (k msb : Nat) :
    ReducedPoint (kernel E P Q k msb) :=
  xadd_reduced E hP (ladder_reduced E hQ k msb)

theorem reducedWalk_mk {E : Curve} {S A1 A2 : Point} (hE : ReducedCurve E) (hS : ReducedPoint S)
    (h1 : ReducedPoint A1) (h2 : ReducedPoint A2) : ReducedWalk ⟨E, S, some A1, some A2⟩ :=
  ⟨hE, hS, fun _ h => Option.some.inj h ▸ h1, fun _ h => Option.some.inj h ▸ h2⟩

theorem State.Reduced.startCurve {s : State} (h : s.Reduced) : ReducedCurve s.startCurve := ⟨h.prmPair 0, h.prmPair 2⟩

/-- The state that ISOGEN2 or ISOGEN3 computes, whichever key it writes. -/
theorem answer_writePk (i : Instr) {s : State} {r : Nat} {k : PublicKey}
    (hk : s.Reduced → Reduced2 k.xP ∧ Reduced2 k.xQ ∧ Reduced2 k.xR) : Answer i s (s.writePk r k) := by
  have frame : s.writePk r k = s.withFiles (s.writePk r k) := writePk_withFiles s s r k
  rw [frame]
  refine .files _ fun h => frame ▸ ?_
  obtain ⟨hP, hQ, hR⟩ := hk h
  exact h.writePk r hP hQ hR

/-- The state that ISOEX2 or ISOEX3 computes, whichever j-invariant it writes. -/
theorem answer_writeZ (i : Instr) (s : State) {r : Nat} {v : Fp2} (hv : Reduced2 v) : Answer i s (s.writeZ r v) :=
  (fileUpdate_writeZ (v := fun _ => v) (fun _ _ => rfl) fun _ _ => hv).answer i s

/-- All that `exec` can answer. -/
theorem exec_answer {i : Instr} {s t : State} (h : exec i s = .next t) : Answer i s t := by
  by_cases ungated : isSetup i = false ∧ isProtocol i = false
  · obtain ⟨g, hg, he⟩ := exec_ungated ungated.1 ungated.2
    rw [he] at h
    obtain ⟨-, rfl⟩ | ⟨hwf, rfl⟩ := command_cases h
    · exact hg.answer i s
    · exact answer_illegalOperand hwf
  cases i with
  | prmConst slot ws => exact answer_of_setupCommand rfl (.bank slot ws rfl) h
  | plock => exact answer_of_setupCommand rfl (fun _ => .lock rfl) h
  | isogen2 =>
    refine answer_of_protocolCommand rfl (answer_writePk _ fun hr => walkKey_reduced (iso2e_reduced _ ?_)) h
    exact reducedWalk_mk hr.startCurve (kernel_reduced _ (hr.prmPoint 4) (hr.prmPoint 8) _ _) (hr.prmPoint 12) (hr.prmPoint 16)
  | isogen3 =>
    refine answer_of_protocolCommand rfl (answer_writePk _ fun hr => walkKey_reduced (iso3e_reduced _ ?_)) h
    exact reducedWalk_mk hr.startCurve (kernel_reduced _ (hr.prmPoint 12) (hr.prmPoint 16) _ _) (hr.prmPoint 4) (hr.prmPoint 8)
  | isoex2 => exact answer_of_protocolCommand rfl (answer_writeZ _ s (jinv_reduced _)) h
  | isoex3 => exact answer_of_protocolCommand rfl (answer_writeZ _ s (jinv_reduced _)) h
  | _ => exact absurd ⟨rfl, rfl⟩ ungated

/-! ### Writes to CMD and host events -/

/-- All that a write of `c` to CMD can answer (rule R260). -/
theorem commandWrite_cases {c : Word} {s t : State} (h : commandWrite c s = .next t) :
    (s.fault = true ∧ t = s) ∨
    (s.fault = false ∧ (∀ i, decode c ≠ .ok i) ∧ t = s.faultEntry .illegalCommand c) ∨
    (s.fault = false ∧ ∃ i, decode c = .ok i ∧ encode i = c ∧ Answer i s t) := by
  cases hf : s.fault with
  | true => exact .inl ⟨rfl, by simpa [commandWrite, hf] using h.symm⟩
  | false =>
    cases hd : decode c with
    | error e =>
      simp only [commandWrite, hf, hd, raiseFault, Bool.false_eq_true, if_false, Host.Outcome.next.injEq] at h
      exact .inr (.inl ⟨rfl, by simp, h.symm⟩)
    | ok i =>
      simp only [commandWrite, hf, hd, Bool.false_eq_true, if_false] at h
      exact .inr (.inr ⟨rfl, i, rfl, encode_of_decode hd, exec_answer h⟩)

theorem ctrlWrite_reset {v : Word} (s : State) (h : v.getLsbD 0 = true) : ctrlWrite v s = s.resetCore := if_pos h

theorem ctrlWrite_ignored {v : Word} (s : State) (h : v.getLsbD 0 = false) : ctrlWrite v s = s := by
  simp only [ctrlWrite, h, Bool.false_eq_true, if_false]

/-- All that a write of `v` to the port at `pa` can answer, by where the port lies in the map. -/
inductive WriteAnswer (pa : BitVec 8) (v : Word) (s : State) : State → Prop
  | command (cmd : pa = 0x00) {t : State} (written : commandWrite v s = .next t) : WriteAnswer pa v s t
  | reset (ctrl : pa = 0x05) (bit : v.getLsbD 0 = true) : WriteAnswer pa v s s.resetCore
  | register (k : Nat) (bound : k < 8) (port : pa.toNat = 0x10 + k) : WriteAnswer pa v s (s.writeW k v)
  | ignored : WriteAnswer pa v s s


theorem portWrite_answer {pa : BitVec 8} {v : Word} {s t : State} (h : portWrite pa v s = .next t) :
    WriteAnswer pa v s t := by
  unfold portWrite at h
  split at h
  next h0 => exact .command (BitVec.eq_of_toNat_eq h0) h
  next h0 =>
    split at h
    next h5 =>
      obtain rfl : pa = 0x05 := BitVec.eq_of_toNat_eq h5
      cases h
      cases hb : v.getLsbD 0 with
      | true =>
        rw [ctrlWrite_reset s hb]
        exact .reset rfl hb
      | false =>
        rw [ctrlWrite_ignored s hb]
        exact .ignored
    next h5 =>
      split at h
      next hw =>
        cases h
        exact .register _ (by omega) (by omega)
      next hw =>
        cases h
        exact .ignored

end Sys2Proof.Machine
end

section
/-! SUPPORT. The machine's state under one host event: the reset, the invariant, the host's list, the parameter bank. -/

namespace Sys2Proof.Machine

/-! ### Resets (rules R36, R38, R290) -/

theorem reset_coreIsReset : State.reset.CoreIsReset := by unfold State.CoreIsReset; decide

theorem resetCore_coreIsReset (s : State) : s.resetCore.CoreIsReset := reset_coreIsReset

theorem hostEvent_of_isResetEvent {e : HostEvent} (s : State) (h : IsResetEvent e) :
    hostEvent e s = .next s.resetCore := by
  obtain rfl | ⟨v, rfl, hv⟩ := h
  · rfl
  · exact congrArg Host.Outcome.next (ctrlWrite_reset s hv)

theorem reset_reduced : State.reset.Reduced := by unfold State.Reduced; decide

theorem State.faultRecorded_of_no_fault {s : State} (hf : s.fault = false) (hc : s.errcode = 0) (hw : s.errcmd = 0) :
    s.FaultRecorded :=
  ⟨fun _ => ⟨hc, hw⟩, fun h => absurd (hf.symm.trans h) Bool.false_ne_true⟩

/-- Settles O11: every register of the reset state is zero. -/
theorem resetMeetsInvariant : Obligations.ResetMeetsInvariant :=
  ⟨reset_reduced, State.faultRecorded_of_no_fault rfl rfl rfl⟩

theorem resetCore_inv (s : State) : s.resetCore.Inv := resetMeetsInvariant

/-! ### The invariant (rules R27, R31, R32, R33) -/

/-- A fault that is due is explained by its record: ERRCMD holds a word that decodes to the command `i`. -/
theorem FaultDue.explained {i : Instr} {c : Word} {s : State} {cause : FaultCause} (hd : decode c = .ok i)
    (h : FaultDue i s cause) : (s.faultEntry cause c).FaultExplained := by
  unfold State.FaultExplained
  cases cause with
  | illegalCommand => exact h.elim
  | illegalOperand => exact .inr (.inl ⟨rfl, i, hd, h⟩)
  | parametersLocked =>
    obtain ⟨hwf, hs, hl⟩ := h
    exact .inr (.inr (.inl ⟨rfl, hl, i, hd, hwf, hs⟩))
  | parametersNotSetUp =>
    obtain ⟨hwf, hp, hl⟩ := h
    exact .inr (.inr (.inr (.inl ⟨rfl, hl, i, hd, hwf, hp⟩)))
  | invalidScalarRange =>
    obtain ⟨hwf, hp, hl⟩ := h
    exact .inr (.inr (.inr (.inr ⟨rfl, hl, i, hd, hwf, hp⟩)))

theorem faultEntry_inv {s : State} {cause : FaultCause} {c : Word} (hr : s.Reduced)
    (h : (s.faultEntry cause c).FaultExplained) : (s.faultEntry cause c).Inv :=
  ⟨hr, fun hf => absurd hf (by simp), fun _ => h⟩

/-- A command that completes leaves FAULT, ERRCODE and ERRCMD as they were, which is zero. -/
theorem Answer.inv {i : Instr} {s t : State} (h : Answer i s t) (hd : decode (encode i) = .ok i) (hf : s.fault = false)
    (hi : s.Inv) : t.Inv := by
  obtain ⟨hr, hrec⟩ := hi
  obtain ⟨hc, hw⟩ := hrec.1 hf
  cases h with
  | files u keepsReduced => exact ⟨keepsReduced hr, State.faultRecorded_of_no_fault hf hc hw⟩
  | bank slot ws => exact ⟨hr.writePrm _ (fpConst_lt _), State.faultRecorded_of_no_fault hf hc hw⟩
  | lock => exact ⟨hr, State.faultRecorded_of_no_fault hf hc hw⟩
  | fault cause due => exact faultEntry_inv hr (due.explained hd)

theorem commandWrite_inv {c : Word} {s t : State} (h : commandWrite c s = .next t) (hi : s.Inv) : t.Inv := by
  obtain ⟨-, rfl⟩ | ⟨-, hd, rfl⟩ | ⟨hf, i, hd, rfl, ha⟩ := commandWrite_cases h
  · exact hi
  · exact faultEntry_inv hi.1 (.inl ⟨rfl, hd⟩)
  · exact ha.inv hd hf hi

theorem hostEvent_inv {e : HostEvent} {s t : State} (h : hostEvent e s = .next t) (hi : s.Inv) : t.Inv := by
  cases e with
  | portRead pa => cases h; exact hi
  | powerOn => cases h; exact resetCore_inv s
  | portWrite pa v =>
    cases portWrite_answer h with
    | command _ written => exact commandWrite_inv written hi
    | reset => exact resetCore_inv s
    | register k => exact hi
    | ignored => exact hi

/-! ### The host's list (rules R30, R57) -/

theorem step_idle {s : State} (h : s.pending = []) : step s = .next s := by
  simp only [step, hostStep, h]

theorem step_pending {s : State} {e : HostEvent} {rest : List HostEvent} (h : s.pending = e :: rest) :
    step s = hostEvent e (s.taken rest) := by
  simp only [step, hostStep, h]

/-- Settles O12: a step is no event or one event, and each answer of an event keeps the invariant. -/
theorem stepKeepsInvariant : Obligations.StepKeepsInvariant := by
  intro s t hi h
  cases hp : s.pending with
  | nil =>
    rw [step_idle hp] at h
    cases h
    exact hi
  | cons e rest =>
    rw [step_pending hp] at h
    exact hostEvent_inv h hi

theorem Answer.sameHost {i : Instr} {s t : State} (h : Answer i s t) : SameHost s t := by
  cases h <;> exact SameHost.refl s

theorem commandWrite_sameHost {c : Word} {s t : State} (h : commandWrite c s = .next t) : SameHost s t := by
  obtain ⟨-, rfl⟩ | ⟨-, -, rfl⟩ | ⟨-, i, -, -, ha⟩ := commandWrite_cases h
  · exact SameHost.refl t
  · exact SameHost.refl s
  · exact ha.sameHost

theorem portWrite_sameHost {pa : BitVec 8} {v : Word} {s t : State} (h : portWrite pa v s = .next t) : SameHost s t := by
  cases portWrite_answer h with
  | command _ written => exact commandWrite_sameHost written
  | reset => exact SameHost.refl s
  | register k => exact SameHost.refl s
  | ignored => exact SameHost.refl s

/-- Settles O10: only a port read adds to the record of replies; every other event leaves the host's side alone. -/
theorem stepTakesOneTransaction : Obligations.StepTakesOneTransaction := by
  refine ⟨fun s => step_idle, fun s t e rest hp h => ?_⟩
  rw [step_pending hp] at h
  cases e with
  | portRead pa =>
    cases h
    exact ⟨rfl, rfl, [_], rfl, by simp⟩
  | powerOn =>
    cases h
    exact ⟨rfl, rfl, [], rfl, by simp⟩
  | portWrite pa v =>
    obtain ⟨hpend, hidx, hrep⟩ := portWrite_sameHost h
    exact ⟨hpend, hidx, [], hrep, by simp⟩

/-! ### The parameter bank (rules R31, R54, R61, R252) -/

/-- A command that does not find the bank unlocked leaves it, and the lock, as they were. -/
theorem Answer.lockedBank {i : Instr} {s t : State} (h : Answer i s t) (hl : s.locked = true) :
    t.locked = true ∧ t.prm = s.prm := by
  cases h with
  | files u => exact ⟨hl, rfl⟩
  | bank _ _ _ _ unlocked => simp [hl] at unlocked
  | lock _ unlocked => simp [hl] at unlocked
  | fault cause => exact ⟨hl, rfl⟩

theorem commandWrite_lockedBank {c : Word} {s t : State} (h : commandWrite c s = .next t) (hl : s.locked = true) :
    t.locked = true ∧ t.prm = s.prm := by
  obtain ⟨-, rfl⟩ | ⟨-, -, rfl⟩ | ⟨-, i, -, -, ha⟩ := commandWrite_cases h
  · exact ⟨hl, rfl⟩
  · exact ⟨hl, rfl⟩
  · exact ha.lockedBank hl

/-- Settles O20: of the answers of an event only a reset and the two setup commands touch `prm` or LOCKED, and the lock
stops those commands. -/
theorem lockedBankStays : Obligations.LockedBankStays := by
  intro s t e hl h
  constructor
  · intro hreset
    cases e with
    | portRead pa => cases h; exact ⟨hl, rfl⟩
    | powerOn => exact absurd (.inl rfl) hreset
    | portWrite pa v =>
      cases portWrite_answer h with
      | command _ written => exact commandWrite_lockedBank written hl
      | reset ctrl bit => exact absurd (.inr ⟨v, by rw [ctrl], bit⟩) hreset
      | register k => exact ⟨hl, rfl⟩
      | ignored => exact ⟨hl, rfl⟩
  · intro hreset
    rw [hostEvent_of_isResetEvent s hreset] at h
    cases h
    exact resetCore_coreIsReset s

theorem prmWord_writePrm_fpConst (s : State) {slot : Slot} (hs : slot.toNat < 20) (v : Word) :
    ((s.writePrm slot.toNat (fpConst v)).prmWord slot.toNat).toNat = v.toNat % 0x0cd07fff := by
  rw [State.prmWord_writePrm s _ _ _ hs, if_pos rfl, BitVec.toNat_ofNat, Nat.mod_eq_of_lt (lt_word_of_lt_p (fpConst_lt v))]
  rfl

/-- A command that changes the bank is an unlocked PRM_CONST, and writes its one slot. -/
theorem Answer.prm_changed {i : Instr} {s t : State} (h : Answer i s t) (hne : t.prm ≠ s.prm) :
    s.locked = false ∧ ∃ slot ws, i = .prmConst slot ws ∧ i.WellFormed ∧
      (t.prmWord slot.toNat).toNat = (s.wWord ws.toNat).toNat % 0x0cd07fff ∧ SameButPrm s t slot.toNat := by
  cases h with
  | files u => exact absurd rfl hne
  | bank slot ws cmd wf unlocked =>
    subst cmd
    have hslot : slot.toNat < 20 := legalS_bound (Bool.and_eq_true_iff.mp wf).1
    exact ⟨unlocked, slot, ws, rfl, wf, prmWord_writePrm_fpConst s hslot _, sameButPrm_writePrm s _ _⟩
  | lock => exact absurd rfl hne
  | fault cause => exact absurd rfl hne

/-- Settles O21: of the answers of an event only a reset and PRM_CONST write `prm`. -/
theorem bankWrittenOnlyByPrmConst : Obligations.BankWrittenOnlyByPrmConst := by
  intro s t e h hne
  cases e with
  | portRead pa => cases h; exact absurd rfl hne
  | powerOn => exact .inl (.inl rfl)
  | portWrite pa v =>
    cases portWrite_answer h with
    | reset ctrl bit => exact .inl (.inr ⟨v, by rw [ctrl], bit⟩)
    | register k => exact absurd rfl hne
    | ignored => exact absurd rfl hne
    | command cmd written =>
      obtain ⟨-, rfl⟩ | ⟨-, -, rfl⟩ | ⟨hf, i, -, rfl, ha⟩ := commandWrite_cases written
      · exact absurd rfl hne
      · exact absurd rfl hne
      · obtain ⟨hl, slot, ws, rfl, hrest⟩ := ha.prm_changed hne
        exact .inr ⟨hl, hf, slot, ws, by rw [cmd], hrest⟩

/-! ### Commands that do not read the bank (rules R31, R235, R237) -/

/-- `s` with another parameter bank. -/
def State.withBank (s : State) (bank : Vector Word 20) : State := { s with prm := bank }

/-- An update of the register files does not see the bank. -/
theorem FileUpdate.withBank {g : State → State} (hg : FileUpdate g) (s : State) (bank : Vector Word 20) :
    g (s.withBank bank) = (g s).withBank bank :=
  calc g (s.withBank bank) = (s.withBank bank).withFiles (g s) := hg.files (s.withBank bank) s
    _ = (s.withFiles (g s)).withBank bank := rfl
    _ = (g s).withBank bank := by rw [← hg.frame s]

theorem withLegalOperands_withBank {i : Instr} {s t : State} {effect effect' : Outcome} (bank : Vector Word 20)
    (he : effect = .next t → effect' = .next (t.withBank bank)) (h : withLegalOperands i s effect = .next t) :
    withLegalOperands i (s.withBank bank) effect' = .next (t.withBank bank) := by
  unfold withLegalOperands at h ⊢
  split at h
  next legal =>
    rw [if_pos legal]
    exact he h
  next illegal =>
    rw [if_neg illegal]
    cases h
    rfl

theorem command_withBank {i : Instr} {s t u : State} (bank : Vector Word 20) (h : command i s u = .next t) :
    command i (s.withBank bank) (u.withBank bank) = .next (t.withBank bank) :=
  withLegalOperands_withBank bank (fun he => by cases he; rfl) h

theorem setupCommand_withBank {i : Instr} {s t u : State} (bank : Vector Word 20) (h : setupCommand i s u = .next t) :
    setupCommand i (s.withBank bank) (u.withBank bank) = .next (t.withBank bank) := by
  refine withLegalOperands_withBank bank (fun he => ?_) h
  have hlock : (s.withBank bank).locked = s.locked := rfl
  rw [hlock]
  split_ifs at he ⊢ <;> cases he <;> rfl

theorem protocolCommand_withBank {i : Instr} {k bound : Nat} {s t u : State} (bank : Vector Word 20)
    (h : protocolCommand i k bound s u = .next t) :
    protocolCommand i k bound (s.withBank bank) (u.withBank bank) = .next (t.withBank bank) := by
  refine withLegalOperands_withBank bank (fun he => ?_) h
  have hlock : (s.withBank bank).locked = s.locked := rfl
  rw [hlock]
  split_ifs at he ⊢ <;> cases he <;> rfl

/-- Settles O22: a command that the lock does not gate updates the register files, which do not see the bank; PLOCK, ISOEX2
and ISOEX3 pass their checks alike. -/
theorem bankReadOnlyByIsogen : Obligations.BankReadOnlyByIsogen := by
  intro s t i bank h2 h3 hprm h
  by_cases ungated : isSetup i = false ∧ isProtocol i = false
  · obtain ⟨g, hg, he⟩ := exec_ungated ungated.1 ungated.2
    rw [he] at h
    have hb := command_withBank bank h
    rwa [← hg.withBank, ← he] at hb
  cases i with
  | prmConst slot ws => exact absurd rfl (hprm slot ws)
  | isogen2 zd ws => exact absurd rfl (h2 zd ws)
  | isogen3 zd ws => exact absurd rfl (h3 zd ws)
  | plock => exact setupCommand_withBank (i := .plock) (s := s) (u := { s with locked := true }) bank h
  | isoex2 => exact protocolCommand_withBank bank h
  | isoex3 => exact protocolCommand_withBank bank h
  | _ => exact absurd ⟨rfl, rfl⟩ ungated

end Sys2Proof.Machine
end

section
/-! SUPPORT. The host port: what each mapped port reads as, and what CTRL, MODULUS and CONFIG do. -/

namespace Sys2Proof.Machine

/-! ### Reads, port by port (rules R32 to R36, R52, R54) -/

theorem statusWord_fields (s : State) :
    s.statusWord.getLsbD 0 = s.locked ∧ s.statusWord.getLsbD 1 = s.fault ∧ s.statusWord.extractLsb' 2 2 = 0 ∧
      s.statusWord.extractLsb' 4 4 = s.errcode ∧ s.statusWord.extractLsb' 8 24 = 0 := by
  unfold State.statusWord
  generalize s.locked = locked, s.fault = fault, s.errcode = errcode
  revert locked fault errcode
  decide

theorem portValue_cmd (s : State) : portValue s 0x00 = 0 := rfl
theorem portValue_status (s : State) : portValue s 0x01 = s.statusWord := rfl
theorem portValue_errcmd (s : State) : portValue s 0x02 = s.errcmd := rfl
theorem portValue_modulus (s : State) : portValue s 0x03 = 0x0cd07fff := rfl
theorem portValue_config (s : State) : portValue s 0x04 = 0x0c0f080f := rfl
theorem portValue_ctrl (s : State) : portValue s 0x05 = 0 := rfl

theorem portValue_w (s : State) {k : Nat} (hk : k < 8) : portValue s (0x10 + k) = s.wWord k := by
  unfold portValue
  rw [if_neg (by omega), if_neg (by omega), if_neg (by omega), if_neg (by omega), if_pos (by omega),
    Nat.add_sub_cancel_left]

theorem portValue_f (s : State) {k : Nat} (hk : k < 64) : portValue s (0x40 + k) = s.fWord k := by
  unfold portValue
  rw [if_neg (by omega), if_neg (by omega), if_neg (by omega), if_neg (by omega), if_neg (by omega), if_pos (by omega),
    Nat.add_sub_cancel_left]

theorem portValue_prm (s : State) {k : Nat} (hk : k < 20) : portValue s (0x80 + k) = s.prmWord k := by
  unfold portValue
  rw [if_neg (by omega), if_neg (by omega), if_neg (by omega), if_neg (by omega), if_neg (by omega), if_neg (by omega),
    if_pos (by omega), Nat.add_sub_cancel_left]

theorem SameCore.replies (s : State) (l : List Word) : SameCore s { s with replies := l } :=
  ⟨rfl, rfl, rfl, SameStatus.refl s⟩

/-- Settles O23: a read records the port's value, and the value is read off the map range by range. -/
theorem portReadsFollowMap : Obligations.PortReadsFollowMap := by
  intro s pa
  refine ⟨portValue s pa.toNat, _, rfl, rfl, SameCore.replies s _, rfl, rfl, ?_, ?_, ?_, ?_, ?_, ?_, ?_, ?_, ?_⟩
  · rintro rfl; exact portValue_cmd s
  · rintro rfl; exact statusWord_fields s
  · rintro rfl; exact portValue_errcmd s
  · rintro rfl; exact portValue_modulus s
  · rintro rfl; exact portValue_config s
  · rintro rfl; exact portValue_ctrl s
  · intro k hk hpa; rw [hpa]; exact portValue_w s hk
  · intro k hk hpa; rw [hpa]; exact portValue_f s hk
  · intro k hk hpa; rw [hpa]; exact portValue_prm s hk

/-! ### CTRL, the constants and the resets (rules R35, R36, R38, R290) -/

/-- Settles O26: bit 0 alone decides between the reset and no effect. -/
theorem ctrlPort : Obligations.CtrlPort := fun s v =>
  ⟨fun h => ⟨s.resetCore, hostEvent_of_isResetEvent s (.inr ⟨v, rfl, h⟩), resetCore_coreIsReset s, SameHost.refl s⟩,
    fun h => congrArg Host.Outcome.next (ctrlWrite_ignored s h), rfl⟩

/-- Settles O27: the ports' values do not depend on the state, and the write map names neither port. -/
theorem readOnlyConstants : Obligations.ReadOnlyConstants := fun _ =>
  ⟨rfl, ⟨configWord, rfl, by decide, by decide, by decide, by decide, by decide⟩, fun _ => ⟨rfl, rfl⟩⟩

theorem statusWord_resetCore (s : State) : s.resetCore.statusWord = 0 := by
  simp only [State.statusWord, State.resetCore_locked, State.resetCore_fault, State.resetCore_errcode]
  decide

/-- Settles O28: either reset event leaves the registers of the reset state, which are all zero. -/
theorem resetValues : Obligations.ResetValues :=
  ⟨reset_coreIsReset, fun s _ h => ⟨s.resetCore, hostEvent_of_isResetEvent s h, resetCore_coreIsReset s, SameHost.refl s,
    statusWord_resetCore s, portValue_errcmd _, portValue_modulus _, portValue_config _⟩⟩

end Sys2Proof.Machine
end

section
/-! SUPPORT. Predicates as commands: FP_EQ, FP_ISEVEN, FP_BIT and PT_ISINF write the whole word 0 or 1 to their one `w`
register (rule R34). -/

namespace Sys2Proof.Machine

theorem predicateWord_eq_ite {b : Bool} {c : Prop} [Decidable c] (h : b = true ↔ c) :
    predicateWord b = if c then 1 else 0 := by
  simp only [predicateWord, h]

/-- A legal command that computes a predicate yields the word of what the predicate says. -/
theorem yieldsW_writePredicate {i : Instr} {s : State} {r : Nat} {b : Bool}
    (he : exec i s = command i s (s.writePredicate r b)) (hwf : i.WellFormed) (hr : r < 8) :
    YieldsW i s r (predicateWord b) :=
  yieldsW_of_exec (he.trans (command_legal s _ hwf)) hr

theorem legalW_of_le {wd : WReg} (h : wd.toNat ≤ 7) : legalW wd = true := by
  simpa [legalW] using Nat.lt_succ_of_le h

theorem readF_eq_readF_iff (s : State) (a b : Nat) : (s.readF a == s.readF b) = true ↔ s.fWord a = s.fWord b := by
  rw [beq_iff_eq]
  exact BitVec.toNat_inj

theorem predicateWord_fpBit (a i : Nat) : predicateWord (fpBit a i) = BitVec.ofNat 32 (a / 2 ^ i % 2) := by
  rcases Nat.mod_two_eq_zero_or_one (a / 2 ^ i) with h | h <;> rw [fpBit, h] <;> rfl

/-- A reduced number has no bit at position 28 or above, since `p < 2 ^ 28`. -/
theorem fpBit_of_reduced {a i : Nat} (ha : a < Config.p) (hi : 28 ≤ i) : fpBit a i = false := by
  have hlt : a < 2 ^ i :=
    calc a < Config.p := ha
      _ ≤ 2 ^ 28 := by decide
      _ ≤ 2 ^ i := Nat.pow_le_pow_right (by decide) hi
  rw [fpBit, Nat.div_eq_of_lt hlt]
  rfl

/-- Settles O32: each command writes its predicate's word, and the predicates are those of the rules. -/
theorem fpPredicateResults : Obligations.FpPredicateResults := by
  intro s wd fa fb bit hwd a
  have hr : wd.toNat < 8 := Nat.lt_succ_of_le hwd
  have hwf : legalW wd = true := legalW_of_le hwd
  have hbit : YieldsW (.fpBit wd fa bit) s wd.toNat (predicateWord (fpBit a bit.toNat)) :=
    yieldsW_writePredicate rfl hwf hr
  refine ⟨?_, ?_, ?_, fun hred hi => ?_⟩
  · exact predicateWord_eq_ite (readF_eq_readF_iff s _ _) ▸ yieldsW_writePredicate rfl hwf hr
  · exact predicateWord_eq_ite (b := fpIseven a) beq_iff_eq ▸ yieldsW_writePredicate rfl hwf hr
  · exact predicateWord_fpBit a _ ▸ hbit
  · rwa [fpBit_of_reduced (a := a) (hred.readF _) hi] at hbit

theorem readPoint_eq_inf_iff (s : State) (r : Nat) :
    (s.readPoint r == inf) = true ↔
      s.fWord r = 0 ∧ s.fWord (r + 1) = 0 ∧ s.fWord (r + 2) = 1 ∧ s.fWord (r + 3) = 0 := by
  simp only [beq_iff_eq, State.readPoint, State.readZ, State.readF, inf, Point.mk.injEq, Fp2.mk.injEq, and_assoc,
    ← BitVec.toNat_inj]
  rfl

/-- Settles O41: a point is the sentinel exactly if its four words are the sentinel's. -/
theorem ptIsinfResult : Obligations.PtIsinfResult := by
  intro s wd qa hwf
  have hr : wd.toNat < 8 := legalW_bound (Bool.and_eq_true_iff.mp hwf).1
  exact predicateWord_eq_ite (readPoint_eq_inf_iff s _) ▸ yieldsW_writePredicate rfl hwf hr

end Sys2Proof.Machine
end

section
/-! SUPPORT. The affine formulas of rules R172 and R173 over the field: the third point of a chord or of a tangent, negated,
lies on the curve. -/

namespace Sys2Proof.Machine

open Config (p)

/-! ### The field has no zero divisors and 2 is not zero in it (rules R8, R17) -/

theorem isDomain_fieldFp2 : IsDomain FieldFp2 := by
  have : Fact p.Prime := ⟨prime_p⟩
  have : Fact (∀ r : ZMod p, r ^ 2 ≠ -1 + 0 * r) :=
    ⟨fun r h => not_isSquare_neg_one ⟨r, by rw [← pow_two, h, zero_mul, add_zero]⟩⟩
  infer_instance

theorem two_ne_zero_fieldFp2 : (2 : FieldFp2) ≠ 0 := by
  intro h
  have hre : (2 : ZMod p) = 0 := by simpa [QuadraticAlgebra.re_ofNat] using congrArg QuadraticAlgebra.re h
  exact absurd hre (by decide)

theorem toField_mk_one : toField ⟨1, 0⟩ = 1 := by
  ext <;> simp [QuadraticAlgebra.re_one, QuadraticAlgebra.im_one]

theorem toField_eq_zero_iff {a : Fp2} (ha : Reduced2 a) : toField a = 0 ↔ a = ⟨0, 0⟩ := by
  constructor
  · intro h
    exact toField_inj ha (reduced2_mk p_pos p_pos) (h.trans toField_mk_zero.symm)
  · rintro rfl
    exact toField_mk_zero

/-! ### The formulas in a commutative ring without zero divisors -/

section
variable {R : Type*} [CommRing R]

/-- `b·y² = x³ + a·x² + x`. -/
def OnMontgomery (a b x y : R) : Prop := b * y ^ 2 = x ^ 3 + a * x ^ 2 + x

/-- The line of slope `lam` through `(x1, y1)` and `(x2, y2)` meets the cubic a third time at `x3`: the cubic minus the line
squared has the roots `x1`, `x2`, and its coefficients give their sum with the third. -/
theorem onMontgomery_chord [IsDomain R] {a b lam x1 y1 x2 y2 x3 : R} (h1 : OnMontgomery a b x1 y1)
    (h2 : OnMontgomery a b x2 y2) (hne : x2 - x1 ≠ 0) (hlam : lam * (x2 - x1) = y2 - y1)
    (hx : x3 = b * lam ^ 2 - a - x1 - x2) : OnMontgomery a b x3 (lam * (x1 - x3) - y1) := by
  unfold OnMontgomery at *
  obtain rfl : y2 = y1 + lam * (x2 - x1) := by rw [hlam]; ring
  obtain rfl : a = b * lam ^ 2 - x1 - x2 - x3 := by rw [hx]; ring
  refine mul_left_cancel₀ hne ?_
  linear_combination (x2 - x3) * h1 + (x3 - x1) * h2

/-- The tangent at `(x1, y1)`: the same with a double root at `x1`, where the cubic minus the line squared and its derivative
are both zero. -/
theorem onMontgomery_tangent {a b lam x1 y1 x3 : R} (h1 : OnMontgomery a b x1 y1)
    (hlam : lam * (2 * b * y1) = 3 * x1 ^ 2 + 2 * a * x1 + 1) (hx : x3 = b * lam ^ 2 - a - x1 - x1) :
    OnMontgomery a b x3 (lam * (x1 - x3) - y1) := by
  unfold OnMontgomery at *
  obtain rfl : a = b * lam ^ 2 - x1 - x1 - x3 := by rw [hx]; ring
  linear_combination h1 + (x3 - x1) * hlam

end

/-! ### The model's formulas through `toField` -/

theorem onCurve_iff {E : Curve} {P : Point} :
    OnCurve E P ↔ OnMontgomery (toField E.a) (toField E.b) (toField P.x) (toField P.y) := Iff.rfl

theorem toField_linePoint_x (E : Curve) (lam : Fp2) (P : Point) (x2 : Fp2) :
    toField (linePoint E lam P x2).x =
      toField E.b * toField lam ^ 2 - toField E.a - toField P.x - toField x2 := by
  simp [linePoint]

theorem toField_linePoint_y (E : Curve) (lam : Fp2) (P : Point) (x2 : Fp2) :
    toField (linePoint E lam P x2).y =
      toField lam * (toField P.x - toField (linePoint E lam P x2).x) - toField P.y := by
  simp [linePoint]

theorem toField_tangentSlope_mul {E : Curve} {P : Point} (hb : toField E.b ≠ 0) (hy : toField P.y ≠ 0) :
    toField (tangentSlope E P) * (2 * toField E.b * toField P.y) =
      3 * toField P.x ^ 2 + 2 * toField E.a * toField P.x + 1 := by
  have := isDomain_fieldFp2
  have hden : toField (fp2Mul (fp2Mul (k2 2) E.b) P.y) ≠ 0 := by
    simpa using ⟨⟨two_ne_zero_fieldFp2, hb⟩, hy⟩
  have h : toField (tangentSlope E P) * toField (fp2Mul (fp2Mul (k2 2) E.b) P.y) = toField _ :=
    toField_fp2Div_mul_cancel _ hden
  simpa using h

/-- The slope of the chord from `P` to `Q`. -/
def chordSlope (P Q : Point) : Fp2 := fp2Div (fp2Sub Q.y P.y) (fp2Sub Q.x P.x)

theorem toField_chordSlope_mul {P Q : Point} (h : toField Q.x - toField P.x ≠ 0) :
    toField (chordSlope P Q) * (toField Q.x - toField P.x) = toField Q.y - toField P.y := by
  simpa [chordSlope] using toField_fp2Div_mul_cancel (fp2Sub Q.y P.y) (b := fp2Sub Q.x P.x) (by simpa using h)

theorem reduced_sub_ne_zero {a b : Fp2} (ha : Reduced2 a) (hb : Reduced2 b) (h : a ≠ b) :
    toField b - toField a ≠ 0 :=
  fun h0 => h (toField_inj ha hb (sub_eq_zero.mp h0).symm)

theorem point_ext_toField {P Q : Point} (hP : ReducedPoint P) (hQ : ReducedPoint Q)
    (hx : toField P.x = toField Q.x) (hy : toField P.y = toField Q.y) : P = Q :=
  (Point.mk.injEq ..).mpr ⟨toField_inj hP.1 hQ.1 hx, toField_inj hP.2 hQ.2 hy⟩

/-- The sentinel does not lie on a curve with `b ≠ 0`, so a point of the curve is no sentinel. -/
theorem OnCurve.ne_inf {E : Curve} {P : Point} (hb : toField E.b ≠ 0) (h : OnCurve E P) : P ≠ inf := by
  rintro rfl
  exact hb (by simpa [OnCurve, inf, toField_mk_zero, toField_mk_one] using h)

/-! ### Doubling (rule R172) -/

theorem eq_fp2Neg_iff {y : Fp2} (hy : Reduced2 y) : y = fp2Neg y ↔ y = ⟨0, 0⟩ := by
  have := isDomain_fieldFp2
  rw [← toField_eq_zero_iff hy]
  constructor
  · intro h
    have h2 : 2 * toField y = 0 := by
      have := congrArg toField h
      rw [toField_fp2Neg] at this
      linear_combination this
    exact (mul_eq_zero.mp h2).resolve_left two_ne_zero_fieldFp2
  · intro h
    exact toField_inj hy (fp2Neg_reduced y) (by rw [toField_fp2Neg, h, neg_zero])

theorem xdbl_of_two_torsion {E : Curve} {P : Point} (h : P.y = ⟨0, 0⟩) : xdbl E P = inf := by
  have hneg : P.y = fp2Neg P.y := (eq_fp2Neg_iff (h ▸ reduced2_mk p_pos p_pos)).mpr h
  rw [xdbl, if_pos hneg, ite_self]

theorem xdbl_generic {E : Curve} {P : Point} (hP : ReducedPoint P) (hne : P ≠ inf) (hy : P.y ≠ ⟨0, 0⟩) :
    xdbl E P = linePoint E (tangentSlope E P) P P.x := by
  rw [xdbl, if_neg hne, if_neg (mt (eq_fp2Neg_iff hP.2).mp hy)]

theorem xdbl_onCurve {E : Curve} {P : Point} (hb : toField E.b ≠ 0) (hP : ReducedPoint P) (h : OnCurve E P)
    (hy : P.y ≠ ⟨0, 0⟩) : OnCurve E (xdbl E P) := by
  have hy' : toField P.y ≠ 0 := mt (toField_eq_zero_iff hP.2).mp hy
  rw [xdbl_generic hP (h.ne_inf hb) hy, onCurve_iff, toField_linePoint_y]
  exact onMontgomery_tangent h (toField_tangentSlope_mul hb hy') (toField_linePoint_x ..)

/-! ### Addition (rule R173) -/

theorem xadd_inf_left (E : Curve) (Q : Point) : xadd E inf Q = Q := if_pos rfl

theorem xadd_inf_right (E : Curve) (P : Point) : xadd E P inf = P := by
  by_cases h : P = inf
  · rw [h, xadd_inf_left]
  · rw [xadd, if_neg h, if_pos rfl]

theorem xadd_self (E : Curve) (P : Point) : xadd E P P = xdbl E P := by
  by_cases h : P = inf
  · rw [h, xadd_inf_left, xdbl, if_pos rfl]
  · rw [xadd, if_neg h, if_neg h, if_pos ⟨rfl, rfl⟩]

theorem xadd_chord {E : Curve} {P Q : Point} (hP : P ≠ inf) (hQ : Q ≠ inf) (hx : P.x ≠ Q.x) :
    xadd E P Q = linePoint E (chordSlope P Q) P Q.x := by
  rw [xadd, if_neg hP, if_neg hQ, if_neg (fun h => hx h.1), if_neg (fun h => hx h.1)]
  rfl

theorem xadd_opposite {E : Curve} {P Q : Point} (hP : P ≠ inf) (hQ : Q ≠ inf) (hne : P ≠ Q) (hx : P.x = Q.x)
    (hy : P.y = fp2Neg Q.y) : xadd E P Q = inf := by
  rw [xadd, if_neg hP, if_neg hQ, if_neg, if_pos ⟨hx, hy⟩]
  exact fun ⟨_, hyy⟩ => hne ((Point.mk.injEq ..).mpr ⟨hx, hyy⟩)

/-- Two different points of the curve with one abscissa are opposite. -/
theorem OnCurve.y_eq_neg {E : Curve} {P Q : Point} (hb : toField E.b ≠ 0) (hP : ReducedPoint P) (hQ : ReducedPoint Q)
    (h1 : OnCurve E P) (h2 : OnCurve E Q) (hx : P.x = Q.x) (hne : P ≠ Q) : P.y = fp2Neg Q.y := by
  have := isDomain_fieldFp2
  have hy : toField P.y - toField Q.y ≠ 0 := fun h0 =>
    hne (point_ext_toField hP hQ (congrArg toField hx) (sub_eq_zero.mp h0))
  have hprod : toField E.b * ((toField P.y - toField Q.y) * (toField P.y + toField Q.y)) = 0 := by
    unfold OnCurve at h1 h2
    rw [hx] at h1
    linear_combination h1 - h2
  have hsum : toField P.y + toField Q.y = 0 :=
    (mul_eq_zero.mp ((mul_eq_zero.mp hprod).resolve_left hb)).resolve_left hy
  exact toField_inj hP.2 (fp2Neg_reduced _) (by rw [toField_fp2Neg]; linear_combination hsum)

/-- The chord from `Q` to `P` is the chord from `P` to `Q`. -/
theorem linePoint_chord_comm (E : Curve) {P Q : Point} (hP : ReducedPoint P) (hQ : ReducedPoint Q) (hx : P.x ≠ Q.x) :
    linePoint E (chordSlope P Q) P Q.x = linePoint E (chordSlope Q P) Q P.x := by
  have := isDomain_fieldFp2
  have hne := reduced_sub_ne_zero hP.1 hQ.1 hx
  have hlam := toField_chordSlope_mul hne
  have hslope : toField (chordSlope Q P) = toField (chordSlope P Q) := by
    have hlam' := toField_chordSlope_mul (reduced_sub_ne_zero hQ.1 hP.1 (Ne.symm hx))
    refine mul_right_cancel₀ hne ?_
    linear_combination -hlam' - hlam
  have hx3 : toField (linePoint E (chordSlope P Q) P Q.x).x = toField (linePoint E (chordSlope Q P) Q P.x).x := by
    rw [toField_linePoint_x, toField_linePoint_x, hslope]
    ring
  refine point_ext_toField (linePoint_reduced ..) (linePoint_reduced ..) hx3 ?_
  rw [toField_linePoint_y, toField_linePoint_y, ← hx3, hslope]
  linear_combination -hlam

theorem linePoint_chord_onCurve {E : Curve} {P Q : Point} (hP : ReducedPoint P) (hQ : ReducedPoint Q)
    (h1 : OnCurve E P) (h2 : OnCurve E Q) (hx : P.x ≠ Q.x) : OnCurve E (linePoint E (chordSlope P Q) P Q.x) := by
  have := isDomain_fieldFp2
  have hne := reduced_sub_ne_zero hP.1 hQ.1 hx
  rw [onCurve_iff, toField_linePoint_y]
  exact onMontgomery_chord h1 h2 hne (toField_chordSlope_mul hne) (toField_linePoint_x ..)

theorem xadd_comm_onCurve {E : Curve} {P Q : Point} (hb : toField E.b ≠ 0) (hP : ReducedPoint P) (hQ : ReducedPoint Q)
    (h1 : OnCurve E P) (h2 : OnCurve E Q) :
    xadd E P Q = xadd E Q P ∧ (xadd E P Q = inf ∨ OnCurve E (xadd E P Q)) := by
  have hPi := h1.ne_inf hb
  have hQi := h2.ne_inf hb
  by_cases hx : P.x = Q.x
  · by_cases hPQ : P = Q
    · subst hPQ
      rw [xadd_self]
      by_cases hy : P.y = ⟨0, 0⟩
      · exact ⟨rfl, .inl (xdbl_of_two_torsion hy)⟩
      · exact ⟨rfl, .inr (xdbl_onCurve hb hP h1 hy)⟩
    · have hPQ' := xadd_opposite (E := E) hPi hQi hPQ hx (h1.y_eq_neg hb hP hQ h2 hx hPQ)
      have hQP' := xadd_opposite (E := E) hQi hPi (Ne.symm hPQ) hx.symm (h2.y_eq_neg hb hQ hP h1 hx.symm (Ne.symm hPQ))
      exact ⟨hPQ'.trans hQP'.symm, .inl hPQ'⟩
  · rw [xadd_chord hPi hQi hx, xadd_chord hQi hPi (Ne.symm hx)]
    exact ⟨linePoint_chord_comm E hP hQ hx, .inr (linePoint_chord_onCurve hP hQ h1 h2 hx)⟩

/-- Settles O47: the sentinel is neutral; two points of the curve are equal, opposite, or span a chord. -/
theorem pointsStayOnCurve : Obligations.PointsStayOnCurve := by
  intro E P Q hE hP hQ hb0 h1 h2
  have hb : toField E.b ≠ 0 := mt (toField_eq_zero_iff hE.2).mp hb0
  refine and_assoc.mp ⟨?_, fun hPi hy => ?_⟩
  · obtain rfl | h1 := h1
    · rw [xadd_inf_left, xadd_inf_right]
      exact ⟨rfl, h2⟩
    obtain rfl | h2 := h2
    · rw [xadd_inf_left, xadd_inf_right]
      exact ⟨rfl, .inr h1⟩
    exact xadd_comm_onCurve hb hP hQ h1 h2
  · have h := xdbl_onCurve hb hP (h1.resolve_left hPi) hy
    exact ⟨h, h.ne_inf hb⟩

end Sys2Proof.Machine
end

section
/-! SUPPORT. One step of the machine: every command and every host event has a next state, a decodable word written to CMD
runs its command, and a write to any other port of the map either lands in one `w` register or does nothing. -/

namespace Sys2Proof.Machine

/-! ### Every answer is a next state (rules R55, R87, R271, R277) -/

theorem withLegalOperands_next (i : Instr) (s : State) {effect : Outcome} (h : ∃ t, effect = .next t) :
    ∃ t, withLegalOperands i s effect = .next t := by
  unfold withLegalOperands
  split
  · exact h
  · exact ⟨_, rfl⟩

theorem setupCommand_next (i : Instr) (s t : State) : ∃ u, setupCommand i s t = .next u := by
  refine withLegalOperands_next i s ?_
  split <;> exact ⟨_, rfl⟩

theorem protocolCommand_next (i : Instr) (k bound : Nat) (s t : State) :
    ∃ u, protocolCommand i k bound s t = .next u := by
  refine withLegalOperands_next i s ?_
  split_ifs <;> exact ⟨_, rfl⟩

/-- Every command has a next state: it completes or it records a fault (rule R271). -/
theorem exec_next (i : Instr) (s : State) : ∃ t, exec i s = .next t := by
  by_cases ungated : isSetup i = false ∧ isProtocol i = false
  · obtain ⟨g, -, he⟩ := exec_ungated ungated.1 ungated.2
    rw [he]
    exact withLegalOperands_next i s ⟨g s, rfl⟩
  cases i with
  | prmConst => exact setupCommand_next ..
  | plock => exact setupCommand_next .plock s { s with locked := true }
  | isogen2 => exact protocolCommand_next ..
  | isogen3 => exact protocolCommand_next ..
  | isoex2 => exact protocolCommand_next ..
  | isoex3 => exact protocolCommand_next ..
  | _ => exact absurd ⟨rfl, rfl⟩ ungated

/-- Every word written to CMD has an effect (rule R87). -/
theorem commandWrite_next (c : Word) (s : State) : ∃ t, commandWrite c s = .next t := by
  unfold commandWrite
  split
  · exact ⟨s, rfl⟩
  · split
    · exact ⟨_, rfl⟩
    · exact exec_next _ s

theorem portWrite_next (pa : BitVec 8) (v : Word) (s : State) : ∃ t, portWrite pa v s = .next t := by
  unfold portWrite
  split
  · exact commandWrite_next v s
  · split_ifs <;> exact ⟨_, rfl⟩

theorem hostEvent_next (e : HostEvent) (s : State) : ∃ t, hostEvent e s = .next t := by
  cases e with
  | portRead pa => exact ⟨_, rfl⟩
  | portWrite pa v => exact portWrite_next pa v s
  | powerOn => exact ⟨_, rfl⟩

/-- Settles O9: a step is no event or one event, and every event has a next state. -/
theorem stepAlwaysHasNextState : Obligations.StepAlwaysHasNextState := by
  intro s
  cases hp : s.pending with
  | nil => exact ⟨s, step_idle hp⟩
  | cons e rest =>
    rw [step_pending hp]
    exact hostEvent_next e _

/-! ### Port writes (rules R53, R55) -/

theorem portWrite_w {pa : BitVec 8} {k : Nat} (s : State) (v : Word) (hk : k < 8) (hpa : pa.toNat = 0x10 + k) :
    portWrite pa v s = .next (s.writeW k v) := by
  unfold portWrite
  rw [hpa, if_neg (by omega), if_neg (by omega), if_pos (by omega), Nat.add_sub_cancel_left]

theorem portWrite_ignored {pa : BitVec 8} (s : State) (v : Word) (hcmd : pa.toNat ≠ 0x00) (hctrl : pa.toNat ≠ 0x05)
    (hw : ¬ (0x10 ≤ pa.toNat ∧ pa.toNat ≤ 0x17)) : portWrite pa v s = .next s := by
  unfold portWrite
  rw [if_neg hcmd, if_neg hctrl, if_neg hw]

theorem wPort_toNat {k : Nat} (hk : k < 8) : (BitVec.ofNat 8 (0x10 + k)).toNat = 0x10 + k := by
  rw [BitVec.toNat_ofNat]
  omega

theorem wWord_writeW_same (s : State) {k : Nat} (hk : k < 8) (v : Word) : (s.writeW k v).wWord k = v := by
  rw [State.wWord_writeW s k k v hk, if_pos rfl]

/-- Settles O24: the write map sends the eight W ports to their registers and ignores every port but those, CMD and
CTRL. -/
theorem hostWritesIntegerRegister : Obligations.HostWritesIntegerRegister := by
  intro s v
  constructor
  · intro k hk
    exact ⟨_, portWrite_w s v hk (wPort_toNat hk), wWord_writeW_same s hk v, sameButW_writeW s k v⟩
  · intro pa hcmd hctrl hw
    refine portWrite_ignored s v (fun h => hcmd (BitVec.eq_of_toNat_eq h)) (fun h => hctrl (BitVec.eq_of_toNat_eq h)) ?_
    rintro ⟨hlo, hhi⟩
    exact hw (pa.toNat - 0x10) (by omega) (by omega)

/-! ### Commands (rules R57, R80, R88, R260) -/

theorem commandWrite_of_decode {c : Word} {i : Instr} {s : State} (hf : s.fault = false) (hd : decode c = .ok i) :
    commandWrite c s = exec i s := by
  simp only [commandWrite, hf, hd, Bool.false_eq_true, if_false]

/-- Settles O7: the step is the head event, a write to CMD, which is accepted as `i`. -/
theorem stepRunsDecodedCommand : Obligations.StepRunsDecodedCommand := by
  intro s c i rest hp hf hd
  calc step s = commandWrite c (s.taken rest) := step_pending hp
    _ = exec i (s.taken rest) := commandWrite_of_decode hf hd

theorem decodeTableWord_eq_some_iff {nbits w : Nat} {i : Instr} :
    decodeTableWord nbits w = some i ↔ decode (BitVec.ofNat 32 (w % 2 ^ nbits)) = .ok i := by
  unfold decodeTableWord
  split
  next hd => simp [hd]
  next hd => simp [hd]

/-- Settles O8: the placed word is the next word that the host writes to CMD. -/
theorem stepRunsPlacedWord : Obligations.StepRunsPlacedWord := fun s w i hd hf =>
  stepRunsDecodedCommand (s.withFetchWord 32 w) _ i s.pending rfl hf (decodeTableWord_eq_some_iff.mp hd)

/-! ### Unmapped and wrong-direction accesses (rule R55) -/

theorem portValue_unreadable (s : State) {pa : Nat} (hstatus : ¬ (0x01 ≤ pa ∧ pa ≤ 0x04))
    (hw : ¬ (0x10 ≤ pa ∧ pa ≤ 0x17)) (hf : ¬ (0x40 ≤ pa ∧ pa ≤ 0x7f)) (hprm : ¬ (0x80 ≤ pa ∧ pa ≤ 0x93)) :
    portValue s pa = 0 := by
  unfold portValue
  rw [if_neg (by omega), if_neg (by omega), if_neg (by omega), if_neg (by omega), if_neg hw, if_neg hf, if_neg hprm]

theorem hostEvent_portRead {pa : BitVec 8} {s : State} {v : Word} (h : portValue s pa.toNat = v) :
    hostEvent (.portRead pa) s = .next { s with replies := v :: s.replies } := by
  subst h
  rfl

/-- Settles O25: no such address lies in a range that reads a register, or in one that a write reaches. -/
theorem unmappedAndWrongDirection : Obligations.UnmappedAndWrongDirection := by
  intro s pa v readOnly unmapped
  constructor
  · intro h
    apply hostEvent_portRead
    obtain ⟨hro, -, -, hw⟩ | h0 | h5 := h
    · obtain ⟨hstatus, hf, hprm⟩ : _ ∧ _ ∧ _ := by simpa only [readOnly, not_or] using hro
      exact portValue_unreadable s hstatus hw hf hprm
    · rw [h0, portValue_cmd]
    · rw [h5, portValue_ctrl]
  · rintro (⟨-, hcmd, hctrl, hw⟩ | hro)
    · exact portWrite_ignored s v hcmd hctrl hw
    · simp only [readOnly] at hro
      exact portWrite_ignored s v (by omega) (by omega) (by omega)

end Sys2Proof.Machine
end

section
/-! SUPPORT. The round trip of the encoding (rules R81, R83, R84, R91): a command's word decodes to the command, and a word
that decodes is its command's word. -/

namespace Sys2Proof

theorem selectInstr_instrFields (i : Instr) : selectInstr (instrFields i) = .ok i := by
  cases i with
  | ladder qd qc qa ws msb =>
    show Except.ok (Instr.ladder qd qc qa (ladderScalar (ladderImm ws msb)) (ladderWidth (ladderImm ws msb))) = _
    rw [ladderScalar_imm, ladderWidth_imm]
  | iso2e qc qs qa a2 a1 e =>
    let m := walkImm a2 a1 e
    show Except.ok (Instr.iso2e qc qs qa (walkA2 m) (walkA1 m) (walkLength m)) = _
    rw [walkA2_imm, walkA1_imm, walkLength_imm]
  | iso3e qc qs qa a2 a1 e =>
    let m := walkImm a2 a1 e
    show Except.ok (Instr.iso3e qc qs qa (walkA2 m) (walkA1 m) (walkLength m)) = _
    rw [walkA2_imm, walkA1_imm, walkLength_imm]
  | _ => rfl

theorem splitFields_encode (i : Instr) : splitFields (encode i) = instrFields i := split_join _

theorem decode_encode (i : Instr) : decode (encode i) = .ok i := by
  rw [decode, splitFields_encode, selectInstr_instrFields]

/-- Settles O2: splitting undoes joining, and each row of rule R84 reads its operands from the fields that the encoder put
them in. -/
theorem decodeAfterEncode : Obligations.DecodeAfterEncode := decode_encode

/-- Settles O3: each row of rule R84 puts its operands back into the fields it took them from. -/
theorem encodeAfterDecode : Obligations.EncodeAfterDecode := fun _ _ => encode_of_decode

/-- Settles O1: the words decode to their commands, and a word that decodes is its command's word. -/
theorem workedEncodings : Obligations.WorkedEncodings := by
  have both {c : Word} {i : Instr} (h : decode c = .ok i) : decode c = .ok i ∧ encode i = c := ⟨h, encode_of_decode h⟩
  exact ⟨both rfl, both rfl, both rfl, both rfl, both rfl, both rfl⟩

end Sys2Proof
end

section
/-! SUPPORT. The opcode table (rule R86): a word meets mask and match of a row exactly if the decoder selects that row's
command, and then of no other row. -/

namespace Sys2Proof

/-! ### Masks, field by field -/

/-- The fields of `x` under the mask `m`. -/
def Fields.and (x m : Fields) : Fields :=
  ⟨x.op &&& m.op, x.rd &&& m.rd, x.ra &&& m.ra, x.rb &&& m.rb, x.imm8 &&& m.imm8⟩

theorem splitFields_and (c m : Word) : splitFields (c &&& m) = (splitFields c).and (splitFields m) := by
  conv_lhs => rw [← join_split c, ← join_split m, joinFields_and, split_join]
  rfl

/-- The fields of `y`, but those of `x` for the operands that the mask `m` leaves out. -/
def Fields.fill (m y x : Fields) : Fields where
  op := y.op
  rd := if m.rd = 0 then x.rd else y.rd
  ra := if m.ra = 0 then x.ra else y.ra
  rb := if m.rb = 0 then x.rb else y.rb
  imm8 := if m.imm8 = 0 then x.imm8 else y.imm8

/-- A mask that covers `op` and covers every other field whole or not at all. -/
def Fields.WholeMask (m : Fields) : Prop :=
  m.op = .allOnes 6 ∧ (m.rd = 0 ∨ m.rd = .allOnes 6) ∧ (m.ra = 0 ∨ m.ra = .allOnes 6) ∧
  (m.rb = 0 ∨ m.rb = .allOnes 6) ∧ (m.imm8 = 0 ∨ m.imm8 = .allOnes 8)

theorem eq_ite_of_and_eq {n : Nat} {v m y : BitVec n} (hm : m = 0 ∨ m = .allOnes n) (h : v &&& m = y) :
    v = if m = 0 then v else y := by
  split
  · rfl
  · next hne => rw [← h, hm.resolve_left hne, BitVec.and_allOnes]

theorem Fields.eq_fill {x m y : Fields} (hm : m.WholeMask) (h : x.and m = y) : x = m.fill y x := by
  obtain ⟨hop, hrd, hra, hrb, himm⟩ := hm
  subst h
  have op_eq : x.op = x.op &&& m.op := by rw [hop, BitVec.and_allOnes]
  obtain ⟨op, rd, ra, rb, imm8⟩ := x
  rw [Fields.fill, Fields.mk.injEq]
  exact ⟨op_eq, eq_ite_of_and_eq hrd rfl, eq_ite_of_and_eq hra rfl, eq_ite_of_and_eq hrb rfl, eq_ite_of_and_eq himm rfl⟩

/-! ### The rows and the decoder -/

theorem opcodeRows_wholeMask : ∀ row ∈ opcodeRows, (splitFields row.2.2).WholeMask := by
  unfold Fields.WholeMask
  decide

theorem opcodeRows_op_nodup : (opcodeRows.map fun row => (splitFields row.2.1).op).Nodup := by decide

/-- A word that meets mask and match of a row has the row's fields, but for the operands that the mask leaves out. -/
theorem splitFields_of_rowSelects {row : String × Word × Word} {c : Word} (hrow : row ∈ opcodeRows)
    (h : rowSelects row c = true) :
    splitFields c = (splitFields row.2.2).fill (splitFields row.2.1) (splitFields c) := by
  rw [rowSelects, beq_iff_eq] at h
  exact Fields.eq_fill (opcodeRows_wholeMask row hrow) (by rw [← splitFields_and, h])

theorem op_of_rowSelects {row : String × Word × Word} {c : Word} (hrow : row ∈ opcodeRows)
    (h : rowSelects row c = true) : (splitFields c).op = (splitFields row.2.1).op := by
  rw [splitFields_of_rowSelects hrow h]
  rfl

/-- No two rows select the same word: they have different opcodes. -/
theorem eq_of_rowSelects {row row' : String × Word × Word} {c : Word} (hrow : row ∈ opcodeRows)
    (hrow' : row' ∈ opcodeRows) (h : rowSelects row c = true) (h' : rowSelects row' c = true) : row = row' :=
  List.inj_on_of_nodup_map opcodeRows_op_nodup hrow hrow'
    ((op_of_rowSelects hrow h).symm.trans (op_of_rowSelects hrow' h'))

/-- Every row, whatever its operands hold, is the row of the command that the decoder selects. -/
theorem selectInstr_of_row : ∀ row ∈ opcodeRows, ∀ x : Fields,
    ∃ i, selectInstr ((splitFields row.2.2).fill (splitFields row.2.1) x) = .ok i ∧ mnemonic i = row.1 := by
  simp only [opcodeRows, opcodeRowsSetup, opcodeRowsFp, opcodeRowsFp2, opcodeRowsCurve, opcodeRowsIsogeny,
    opcodeRowsProtocol, List.forall_mem_append, List.forall_mem_cons, List.not_mem_nil, false_imp_iff, implies_true,
    and_true]
  and_intros
  all_goals exact fun x => ⟨_, rfl, rfl⟩

theorem decode_of_rowSelects {row : String × Word × Word} {c : Word} (hrow : row ∈ opcodeRows)
    (h : rowSelects row c = true) : ∃ i, decode c = .ok i ∧ mnemonic i = row.1 := by
  rw [decode, splitFields_of_rowSelects hrow h]
  exact selectInstr_of_row row hrow _

theorem exists_row_selects_encode (i : Instr) :
    ∃ row ∈ opcodeRows, row.1 = mnemonic i ∧ rowSelects row (encode i) = true :=
  match i with
  | .prmConst .. => Laws.EncodeSelectsRow.prmConst ..
  | .plock => Laws.EncodeSelectsRow.plock
  | .fpConst .. => Laws.EncodeSelectsRow.fpConst ..
  | .fpAdd .. => Laws.EncodeSelectsRow.fpAdd ..
  | .fpSub .. => Laws.EncodeSelectsRow.fpSub ..
  | .fpMul .. => Laws.EncodeSelectsRow.fpMul ..
  | .fpNeg .. => Laws.EncodeSelectsRow.fpNeg ..
  | .fpSqr .. => Laws.EncodeSelectsRow.fpSqr ..
  | .fpInv .. => Laws.EncodeSelectsRow.fpInv ..
  | .fpPow .. => Laws.EncodeSelectsRow.fpPow ..
  | .fpSqrt .. => Laws.EncodeSelectsRow.fpSqrt ..
  | .fpEq .. => Laws.EncodeSelectsRow.fpEq ..
  | .fpIseven .. => Laws.EncodeSelectsRow.fpIseven ..
  | .fpBit .. => Laws.EncodeSelectsRow.fpBit ..
  | .fpIsqr .. => Laws.EncodeSelectsRow.fpIsqr ..
  | .fp2Const .. => Laws.EncodeSelectsRow.fp2Const ..
  | .fp2Constp .. => Laws.EncodeSelectsRow.fp2Constp ..
  | .fp2Add .. => Laws.EncodeSelectsRow.fp2Add ..
  | .fp2Sub .. => Laws.EncodeSelectsRow.fp2Sub ..
  | .fp2Mul .. => Laws.EncodeSelectsRow.fp2Mul ..
  | .fp2Sqr .. => Laws.EncodeSelectsRow.fp2Sqr ..
  | .fp2Inv .. => Laws.EncodeSelectsRow.fp2Inv ..
  | .fp2Neg .. => Laws.EncodeSelectsRow.fp2Neg ..
  | .fp2Eq .. => Laws.EncodeSelectsRow.fp2Eq ..
  | .fp2Sqrt .. => Laws.EncodeSelectsRow.fp2Sqrt ..
  | .ptIsinf .. => Laws.EncodeSelectsRow.ptIsinf ..
  | .xdbl .. => Laws.EncodeSelectsRow.xdbl ..
  | .xadd .. => Laws.EncodeSelectsRow.xadd ..
  | .xtpl .. => Laws.EncodeSelectsRow.xtpl ..
  | .xdble .. => Laws.EncodeSelectsRow.xdble ..
  | .xtple .. => Laws.EncodeSelectsRow.xtple ..
  | .ladder .. => Laws.EncodeSelectsRow.ladder ..
  | .jinv .. => Laws.EncodeSelectsRow.jinv ..
  | .curve2iso .. => Laws.EncodeSelectsRow.curve2iso ..
  | .eval2iso .. => Laws.EncodeSelectsRow.eval2iso ..
  | .curve3iso .. => Laws.EncodeSelectsRow.curve3iso ..
  | .eval3iso .. => Laws.EncodeSelectsRow.eval3iso ..
  | .curve4iso .. => Laws.EncodeSelectsRow.curve4iso ..
  | .eval4iso .. => Laws.EncodeSelectsRow.eval4iso ..
  | .iso2e .. => Laws.EncodeSelectsRow.iso2e ..
  | .iso3e .. => Laws.EncodeSelectsRow.iso3e ..
  | .getxr .. => Laws.EncodeSelectsRow.getxr ..
  | .recover .. => Laws.EncodeSelectsRow.recover ..
  | .isogen2 .. => Laws.EncodeSelectsRow.isogen2 ..
  | .isogen3 .. => Laws.EncodeSelectsRow.isogen3 ..
  | .isoex2 .. => Laws.EncodeSelectsRow.isoex2 ..
  | .isoex3 .. => Laws.EncodeSelectsRow.isoex3 ..

theorem exists_row_of_decode {c : Word} {i : Instr} (h : decode c = .ok i) :
    ∃ row ∈ opcodeRows, row.1 = mnemonic i ∧ rowSelects row c = true :=
  encode_of_decode h ▸ exists_row_selects_encode i

end Sys2Proof
end

section
/-! SUPPORT. The words that are refused before a command does anything (rules R85, R86, R88): those that select no row, the
reserved opcodes among them, and those with an illegal operand. -/

namespace Sys2Proof.Machine

theorem commandWrite_of_undecodable {c : Word} {s : State} (hf : s.fault = false) (hd : ∀ i, decode c ≠ .ok i) :
    ∃ t, commandWrite c s = .next t ∧ AfterFault s t 1 c := by
  obtain ⟨t, ht⟩ := commandWrite_next c s
  obtain ⟨hf', -⟩ | ⟨-, -, rfl⟩ | ⟨-, i, hi, -⟩ := commandWrite_cases ht
  · exact absurd (hf.symm.trans hf') Bool.false_ne_true
  · exact ⟨_, ht, afterFault_faultEntry s .illegalCommand c⟩
  · exact absurd hi (hd i)

theorem withLegalOperands_illegal {i : Instr} (s : State) (effect : Outcome) (h : operandsLegal i = false) :
    withLegalOperands i s effect = .next (s.faultEntry .illegalOperand (encode i)) := by
  simp only [withLegalOperands, h, Bool.false_eq_true, if_false, raiseFault]

/-- The check of the operands comes before all that a command does (rule R260). -/
theorem exec_illegal {i : Instr} (s : State) (h : operandsLegal i = false) :
    exec i s = .next (s.faultEntry .illegalOperand (encode i)) := by
  by_cases ungated : isSetup i = false ∧ isProtocol i = false
  · obtain ⟨g, -, he⟩ := exec_ungated ungated.1 ungated.2
    rw [he, command_illegal s (g s) h]
  cases i with
  | prmConst => exact withLegalOperands_illegal s _ h
  | plock => exact withLegalOperands_illegal s _ h
  | isogen2 => exact withLegalOperands_illegal s _ h
  | isogen3 => exact withLegalOperands_illegal s _ h
  | isoex2 => exact withLegalOperands_illegal s _ h
  | isoex3 => exact withLegalOperands_illegal s _ h
  | _ => exact absurd ⟨rfl, rfl⟩ ungated

theorem commandWrite_of_illegal {c : Word} {i : Instr} {s : State} (hf : s.fault = false) (hd : decode c = .ok i)
    (hi : ¬ i.WellFormed) : ∃ t, commandWrite c s = .next t ∧ AfterFault s t 2 c := by
  obtain rfl := encode_of_decode hd
  refine ⟨_, ?_, afterFault_faultEntry s .illegalOperand (encode i)⟩
  rw [commandWrite_of_decode hf hd, exec_illegal s (Bool.not_eq_true _ ▸ hi)]

/-- Settles O4: the rows and the decoder agree on the opcode and on the fields that must be zero; a word without a command
and a command with an illegal operand are refused by the first two checks. -/
theorem rowsSelectCommands : Obligations.RowsSelectCommands := by
  intro c
  refine ⟨fun _ => decode_of_rowSelects, fun _ => exists_row_of_decode, fun _ hrow _ => eq_of_rowSelects hrow,
    fun s hf => ⟨fun noRow => ?_, fun _ => commandWrite_of_illegal hf⟩⟩
  refine commandWrite_of_undecodable hf fun i hd => ?_
  obtain ⟨row, hrow, -, hsel⟩ := exists_row_of_decode hd
  exact absurd ((noRow row hrow).symm.trans hsel) Bool.false_ne_true

/-! ### Reserved opcodes (rule R85) -/

/-- The reserved values of `op` (rule R85). -/
def reservedOps : List (BitVec 6) :=
  [0x00, 0x03, 0x04, 0x05, 0x06, 0x07, 0x15, 0x16, 0x17, 0x22, 0x23, 0x24, 0x25, 0x26, 0x27, 0x3e, 0x3f]

theorem selectInstr_of_reserved {x : Fields} (h : x.op ∈ reservedOps) :
    selectInstr x = .error (.reservedOpcode x.op) := by
  obtain ⟨op, rd, ra, rb, imm8⟩ := x
  simp only [reservedOps, List.mem_cons, List.not_mem_nil, or_false] at h
  rcases h with rfl | rfl | rfl | rfl | rfl | rfl | rfl | rfl | rfl | rfl | rfl | rfl | rfl | rfl | rfl | rfl | rfl <;> rfl

theorem instrFields_op_not_reserved (i : Instr) : (instrFields i).op ∉ reservedOps := by
  intro h
  cases (selectInstr_instrFields i).symm.trans (selectInstr_of_reserved h)

theorem selectInstr_isOk_of_not_reserved :
    ∀ op, op ∉ reservedOps → (selectInstr ⟨op, 0, 0, 0, 0⟩).isOk = true := by decide

/-- An opcode that is not reserved has a command: the one with zero in every operand field. -/
theorem exists_instr_of_not_reserved {op : BitVec 6} (h : op ∉ reservedOps) : ∃ i, (instrFields i).op = op := by
  have ok := selectInstr_isOk_of_not_reserved op h
  cases hi : selectInstr ⟨op, 0, 0, 0, 0⟩ with
  | ok i => exact ⟨i, by rw [instrFields_of_selectInstr hi]⟩
  | error e =>
    rw [hi] at ok
    cases ok

theorem op_encode (i : Instr) : (encode i).extractLsb' 26 6 = (instrFields i).op :=
  congrArg Fields.op (splitFields_encode i)

theorem mem_reservedOps_iff (op : BitVec 6) : op ∈ reservedOps ↔ ∀ i : Instr, (encode i).extractLsb' 26 6 ≠ op := by
  simp only [op_encode]
  constructor
  · rintro h i rfl
    exact instrFields_op_not_reserved i h
  · intro h
    by_contra hop
    obtain ⟨i, hi⟩ := exists_instr_of_not_reserved hop
    exact h i hi

theorem decode_ne_ok_of_reserved {c : Word} (h : c.extractLsb' 26 6 ∈ reservedOps) (i : Instr) : decode c ≠ .ok i := by
  intro hd
  cases hd.symm.trans (selectInstr_of_reserved h)

/-- Settles O5: a word with a reserved opcode is no command's word, so it does not decode; the all-zero word and the all-one
word have the opcodes 0x00 and 0x3f. -/
theorem reservedOpcodes : Obligations.ReservedOpcodes := by
  refine ⟨rfl, mem_reservedOps_iff, fun s c hf hc => commandWrite_of_undecodable hf (decode_ne_ok_of_reserved ?_)⟩
  obtain h | rfl | rfl := hc
  · exact h
  · decide
  · decide

end Sys2Proof.Machine
end

section
/-! SUPPORT. The legal values of a field, class by class, and the legal registers of a walk (rules R82, R83, R209). -/

namespace Sys2Proof

theorem legalZ_iff {v : ZReg} : legalZ v = true ↔ 2 ∣ v.toNat := by
  simp only [legalZ, beq_iff_eq, Nat.dvd_iff_mod_eq_zero]

theorem legalQ_iff {v : QReg} : legalQ v = true ↔ 4 ∣ v.toNat := by
  simp only [legalQ, beq_iff_eq, Nat.dvd_iff_mod_eq_zero]

theorem legalQC_iff {v : QcReg} : legalQC v = true ↔ 4 ∣ v.toNat ∧ v.toNat ≤ 60 := by
  simp only [legalQC, Bool.and_eq_true, beq_iff_eq, decide_eq_true_eq, Nat.dvd_iff_mod_eq_zero]

theorem legalPK_iff {v : PkReg} : legalPK v = true ↔ 2 ∣ v.toNat ∧ v.toNat ≤ 58 := by
  simp only [legalPK, Bool.and_eq_true, beq_iff_eq, decide_eq_true_eq, Nat.dvd_iff_mod_eq_zero]

theorem legalT3_iff {v : T3Reg} : legalT3 v = true ↔ 4 ∣ v.toNat ∧ v.toNat ≤ 52 := by
  simp only [legalT3, Bool.and_eq_true, beq_iff_eq, decide_eq_true_eq, Nat.dvd_iff_mod_eq_zero]

theorem legalW_iff {v : WReg} : legalW v = true ↔ v.toNat ≤ 7 := by
  simp only [legalW, decide_eq_true_eq, Nat.lt_succ_iff]

theorem legalS_iff {v : Slot} : legalS v = true ↔ v.toNat ≤ 19 := by
  simp only [legalS, decide_eq_true_eq, Nat.lt_succ_iff]

theorem walkRegs_nodup_iff {qc qs qa : QReg} {a2 a1 : Bool} : (walkRegs qc qs qa a2 a1).Nodup ↔
    qc ≠ qs ∧ (a1 = true → qa ≠ qc ∧ qa ≠ qs) ∧
      (a2 = true → qa.toNat + 4 ≠ qc.toNat ∧ qa.toNat + 4 ≠ qs.toNat) := by
  simp only [ne_eq, ← BitVec.toNat_inj]
  match a1, a2 with
  | false, false => simp [walkRegs]
  | true, false => grind [walkRegs]
  | false, true => grind [walkRegs]
  | true, true => grind [walkRegs]

theorem legalWalk_iff {qc qs qa : QReg} {a2 a1 : Bool} : legalWalk qc qs qa a2 a1 = true ↔
    4 ∣ qc.toNat ∧ 4 ∣ qs.toNat ∧ 4 ∣ qa.toNat ∧ (a2 = true → qa.toNat ≤ 56) ∧
      qc ≠ qs ∧ (a1 = true → qa ≠ qc ∧ qa ≠ qs) ∧
      (a2 = true → qa.toNat + 4 ≠ qc.toNat ∧ qa.toNat + 4 ≠ qs.toNat) := by
  rw [← walkRegs_nodup_iff]
  cases a2 <;> simp [legalWalk, legalQ_iff, and_assoc]

/-- Settles O6: each command's legality is that of its fields, class by class. -/
theorem operandClasses : Obligations.OperandClasses := by
  refine ⟨fun _ _ _ => rfl, fun _ _ => ?_, fun _ _ _ _ => ?_, fun _ _ => ?_, fun _ _ => ?_, fun _ _ _ _ => ?_,
    fun _ _ _ _ _ => ?_, fun _ _ _ _ _ _ => ⟨legalWalk_iff, legalWalk_iff⟩⟩ <;>
  simp only [Instr.WellFormed, operandsLegal, Bool.and_eq_true, and_assoc, legalZ_iff, legalQ_iff, legalQC_iff,
    legalPK_iff, legalT3_iff, legalW_iff, legalS_iff]

end Sys2Proof
end

section
/-! SUPPORT. The Fp unit against the rules: each function's value as an integer, the laws of the unit as laws of `ZMod p`,
and the root that FP_SQRT computes, by Euler's criterion. -/

namespace Sys2Proof.Machine

open Config (p)

/-! ### Values as integers (rules R112 to R118, R120) -/

/-- A canonical representative is the remainder of every number it is congruent to. -/
theorem eq_mod_of_cast {x y : Nat} (hx : x < p) (h : (x : ZMod p) = y) : x = y % p :=
  (natCast_inj_of_lt hx (red_lt y)).mp (h.trans (cast_red y).symm)

theorem fpAdd_eq_ite {a b : Nat} (ha : a < p) (hb : b < p) :
    fpAdd a b = if a + b < p then a + b else a + b - p := by
  split
  next h => exact Nat.mod_eq_of_lt h
  next h =>
    have hlt : a + b - p < p := by omega
    rw [fpAdd, red, Nat.mod_eq_sub_mod (Nat.le_of_not_lt h), Nat.mod_eq_of_lt hlt]

theorem fpSub_eq_ite {a b : Nat} (ha : a < p) (hb : b < p) :
    fpSub a b = if b ≤ a then a - b else a + p - b := by
  split
  next h =>
    refine (natCast_inj_of_lt (fpSub_lt a b) (by omega)).mp ?_
    rw [cast_fpSub, Nat.cast_sub h]
  next h =>
    refine (natCast_inj_of_lt (fpSub_lt a b) (by omega)).mp ?_
    rw [cast_fpSub, Nat.cast_sub (by omega), Nat.cast_add, ZMod.natCast_self, add_zero]

theorem fpNeg_eq_ite {a : Nat} (ha : a < p) : fpNeg a = if a = 0 then 0 else p - a := by
  split
  next h =>
    rw [h]
    rfl
  next h =>
    refine (natCast_inj_of_lt (fpNeg_lt a) (by omega)).mp ?_
    rw [cast_fpNeg, Nat.cast_sub ha.le, ZMod.natCast_self, zero_sub]

theorem fpPow_eq_pow_mod (a : Nat) {e : Nat} (he : e < 2 ^ 32) : fpPow a e = a ^ e % p :=
  eq_mod_of_cast (fpPow_lt a e) (by rw [cast_fpPow a he, Nat.cast_pow])

theorem fpInv_eq_pow_mod (a : Nat) : fpInv a = a ^ (p - 2) % p := by
  have hexp : Config.invExp = p - 2 := by decide
  rw [fpInv, fpPow_eq_pow_mod a (by decide), hexp]

theorem fpPow_sqrtExp_eq_pow_mod (a : Nat) : fpPow a Config.sqrtExp = a ^ ((p + 1) / 4) % p := by
  have hexp : Config.sqrtExp = (p + 1) / 4 := by decide
  rw [fpPow_eq_pow_mod a (by decide), hexp]

/-- A power that is odd is not 0, so its negative is `p` minus it. -/
theorem fpSqrt_eq_ite (a : Nat) :
    fpSqrt a = if fpPow a Config.sqrtExp % 2 = 0 then fpPow a Config.sqrtExp else p - fpPow a Config.sqrtExp := by
  simp only [fpSqrt, fpIseven, beq_iff_eq]
  split
  next => rfl
  next h => rw [fpNeg_eq_ite (fpPow_lt a _), if_neg (by omega)]

/-! ### The commands -/

/-- A legal command that writes one `f` register yields what it writes. -/
theorem yieldsF_writeF {i : Instr} {s : State} {fd : FReg} {v : Nat}
    (he : exec i s = command i s (s.writeF fd.toNat v)) (hwf : i.WellFormed) (hv : v < p) : YieldsF i s fd.toNat v :=
  yieldsF_of_exec (he.trans (command_legal s _ hwf)) fd.isLt hv

/-- Settles O30: each command writes its function's value, and a sum, difference or negative of reduced operands wraps at
most once. -/
theorem fpArithmeticResults : Obligations.FpArithmeticResults := by
  intro s fd fa fb ws hred a b P
  have ha : a < p := hred.readF _
  have hb : b < p := hred.readF _
  refine ⟨?_, ?_, ?_, ?_, ?_, fun hws => ?_⟩
  · exact fpAdd_eq_ite ha hb ▸ yieldsF_writeF rfl rfl (fpAdd_lt a b)
  · exact fpSub_eq_ite ha hb ▸ yieldsF_writeF rfl rfl (fpSub_lt a b)
  · exact yieldsF_writeF rfl rfl (fpMul_lt a b)
  · exact fpNeg_eq_ite ha ▸ yieldsF_writeF rfl rfl (fpNeg_lt a)
  · exact yieldsF_writeF rfl rfl (fpSqr_lt a)
  · exact yieldsF_writeF rfl (legalW_of_le hws) (fpConst_lt _)

/-- Settles O31: the three commands are powers, with exponents that fit the 32 bits `fp_pow` scans. -/
theorem fpPowerResults : Obligations.FpPowerResults := by
  intro s fd fa ws a P t
  have hsqrt := fpSqrt_eq_ite a
  rw [fpPow_sqrtExp_eq_pow_mod] at hsqrt
  refine ⟨?_, fun hws => ?_, ?_⟩
  · exact fpInv_eq_pow_mod a ▸ yieldsF_writeF rfl rfl (fpInv_lt a)
  · exact fpPow_eq_pow_mod a (s.wWord ws.toNat).isLt ▸ yieldsF_writeF rfl (legalW_of_le hws) (fpPow_lt a _)
  · exact hsqrt ▸ yieldsF_writeF rfl rfl (fpSqrt_lt a)

/-! ### Laws of the unit (rule R126) -/

theorem natCast_ne_zero_of_lt {a : Nat} (ha : a < p) (h : a ≠ 0) : (a : ZMod p) ≠ 0 := fun h0 =>
  h ((natCast_inj_of_lt ha p_pos).mp (h0.trans Nat.cast_zero.symm))

theorem fpMul_fpInv {a : Nat} (ha : a < p) (h : a ≠ 0) : fpMul a (fpInv a) = 1 := by
  have : Fact p.Prime := ⟨prime_p⟩
  refine (natCast_inj_of_lt (fpMul_lt _ _) (by decide)).mp ?_
  rw [cast_fpMul, cast_fpInv, mul_inv_cancel₀ (natCast_ne_zero_of_lt ha h), Nat.cast_one]

/-- Fermat's little theorem. -/
theorem fpPow_sub_one {a : Nat} (ha : a < p) (h : a ≠ 0) : fpPow a (p - 1) = 1 := by
  have : Fact p.Prime := ⟨prime_p⟩
  refine (natCast_inj_of_lt (fpPow_lt _ _) (by decide)).mp ?_
  rw [cast_fpPow a (by decide), ZMod.pow_card_sub_one_eq_one (natCast_ne_zero_of_lt ha h), Nat.cast_one]

/-- Settles O33: both sides of each law are canonical representatives, and the law holds in `ZMod p`. -/
theorem fpUnitLaws : Obligations.FpUnitLaws := by
  intro a b c ha _ _
  refine ⟨?_, ?_, ?_, ?_, ?_, ?_, fun h => ⟨fpMul_fpInv ha h, fpPow_sub_one ha h⟩⟩
  · exact congrArg red (Nat.add_comm a b)
  · exact congrArg red (Nat.mul_comm a b)
  · refine (natCast_inj_of_lt (fpAdd_lt _ _) (fpAdd_lt _ _)).mp ?_
    simp only [cast_fpAdd, add_assoc]
  · refine (natCast_inj_of_lt (fpMul_lt _ _) (fpMul_lt _ _)).mp ?_
    simp only [cast_fpMul, mul_assoc]
  · refine (natCast_inj_of_lt (fpMul_lt _ _) (fpAdd_lt _ _)).mp ?_
    simp only [cast_fpAdd, cast_fpMul, mul_add]
  · refine (natCast_inj_of_lt (fpSub_lt _ _) (fpAdd_lt _ _)).mp ?_
    simp only [cast_fpSub, cast_fpAdd, cast_fpNeg, sub_eq_add_neg]

/-! ### Roots and residues (rules R120, R124, R127) -/

/-- `p` is odd, so of a number and its negative one is even. -/
theorem fpSqrt_even (a : Nat) : fpSqrt a % 2 = 0 := by
  have hlt := fpPow_lt a Config.sqrtExp
  have hp : p % 2 = 1 := by decide
  rw [fpSqrt_eq_ite]
  split
  next h => exact h
  next h => omega

/-- The choice of the even root does not change its square. -/
theorem cast_fpSqrt_sq (a : Nat) : ((fpSqrt a : Nat) : ZMod p) ^ 2 = (a : ZMod p) * (a : ZMod p) ^ (p / 2) := by
  have hexp : Config.sqrtExp * 2 = p / 2 + 1 := by decide
  have hsq : ((fpSqrt a : Nat) : ZMod p) ^ 2 = ((fpPow a Config.sqrtExp : Nat) : ZMod p) ^ 2 := by
    unfold fpSqrt
    dsimp only
    split
    · rfl
    · rw [cast_fpNeg, neg_sq]
  rw [hsq, cast_fpPow a (by decide), ← pow_mul, hexp, pow_succ']

theorem fpSqr_fpSqrt_of_isSquare {a : Nat} (ha : a < p) (h : IsSquare (a : ZMod p)) : fpSqr (fpSqrt a) = a := by
  have : Fact p.Prime := ⟨prime_p⟩
  refine (natCast_inj_of_lt (fpSqr_lt _) ha).mp ?_
  rw [cast_fpSqr, cast_fpSqrt_sq]
  by_cases h0 : (a : ZMod p) = 0
  · rw [h0, zero_mul]
  · rw [(ZMod.euler_criterion p h0).mp h, mul_one]

theorem fpSqr_fpSqrt_of_not_isSquare {a : Nat} (h : ¬ IsSquare (a : ZMod p)) : fpSqr (fpSqrt a) = fpNeg a := by
  have : Fact p.Prime := ⟨prime_p⟩
  have h0 : (a : ZMod p) ≠ 0 := fun h0 => h (h0 ▸ IsSquare.zero)
  have hpow : (a : ZMod p) ^ (p / 2) = -1 :=
    (ZMod.pow_div_two_eq_neg_one_or_one p h0).resolve_left (mt (ZMod.euler_criterion p h0).mpr h)
  refine (natCast_inj_of_lt (fpSqr_lt _) (fpNeg_lt a)).mp ?_
  rw [cast_fpSqr, cast_fpSqrt_sq, hpow, mul_neg_one, cast_fpNeg]

/-- `p` is odd, so no number is `p` minus itself. -/
theorem fpNeg_of_not_isSquare {a : Nat} (ha : a < p) (h : ¬ IsSquare (a : ZMod p)) : fpNeg a = p - a ∧ p - a ≠ a := by
  have h0 : a ≠ 0 := by
    rintro rfl
    rw [Nat.cast_zero] at h
    exact h IsSquare.zero
  have hp : p % 2 = 1 := by decide
  exact ⟨by rw [fpNeg_eq_ite ha, if_neg h0], by omega⟩

/-- Settles O34: by Euler's criterion the square of the root is `a` or its negative, and FP_ISQR compares it with `a`. -/
theorem fpRootsAndResidues : Obligations.FpRootsAndResidues := by
  intro s fd fa wd hred hwd a
  have ha : a < p := hred.readF _
  have hisqr : YieldsW (.fpIsqr wd fa) s wd.toNat (predicateWord (fpSqr (fpSqrt a) == a)) :=
    yieldsW_writePredicate rfl (legalW_of_le hwd) (Nat.lt_succ_of_le hwd)
  refine ⟨fpSqrt a, yieldsF_writeF rfl rfl (fpSqrt_lt a), fpSqrt_even a, fun h => ?_, fun h => ?_⟩
  · have hsq := fpSqr_fpSqrt_of_isSquare ha h
    rw [hsq, beq_self_eq_true] at hisqr
    exact ⟨hsq, hisqr⟩
  · obtain ⟨hneg, hne⟩ := fpNeg_of_not_isSquare ha h
    have hsq : fpSqr (fpSqrt a) = p - a := (fpSqr_fpSqrt_of_not_isSquare h).trans hneg
    rw [hsq, beq_false_of_ne hne] at hisqr
    exact ⟨hsq, hne, hisqr⟩

end Sys2Proof.Machine
end

section
/-! SUPPORT. The Fp2 unit against the rules: what each component-wise command, the product and the inverse yield. -/

namespace Sys2Proof.Machine

open Config (p)

/-! ### Values (rules R142 to R147) -/

theorem fp2Sub_eq_ite {a b : Fp2} (ha : Reduced2 a) (hb : Reduced2 b) :
    fp2Sub a b = ⟨if b.x0 ≤ a.x0 then a.x0 - b.x0 else a.x0 + p - b.x0,
      if b.x1 ≤ a.x1 then a.x1 - b.x1 else a.x1 + p - b.x1⟩ := by
  rw [fp2Sub, fpSub_eq_ite ha.1 hb.1, fpSub_eq_ite ha.2 hb.2]

theorem fp2Neg_eq_fp2Sub (a : Fp2) : fp2Neg a = fp2Sub ⟨0, 0⟩ a := by
  simp only [fp2Neg, fp2Sub, fpNeg, fpSub, Nat.cast_zero, zero_sub]

theorem fp2_beq_iff (a b : Fp2) : (a == b) = true ↔ a.x0 = b.x0 ∧ a.x1 = b.x1 :=
  beq_iff_eq.trans (iff_of_eq (Fp2.mk.injEq ..))

/-- Karatsuba's three products give the schoolbook formula. -/
theorem fp2Mul_eq_schoolbook (a b : Fp2) :
    fp2Mul a b = ⟨redInt ((a.x0 * b.x0 : Nat) - (a.x1 * b.x1 : Nat)), red (a.x0 * b.x1 + a.x1 * b.x0)⟩ := by
  refine toField_inj (fp2Mul_reduced a b) (reduced2_mk (redInt_lt _) (red_lt _)) ?_
  rw [toField_fp2Mul]
  ext
  · simp [sub_eq_add_neg]
  · simp

theorem fp2Sqr_eq_schoolbook (a : Fp2) :
    fp2Sqr a = ⟨redInt ((a.x0 * a.x0 : Nat) - (a.x1 * a.x1 : Nat)), red (2 * a.x0 * a.x1)⟩ := by
  have hcross : a.x0 * a.x1 + a.x1 * a.x0 = 2 * a.x0 * a.x1 := by ring
  rw [fp2Sqr, fp2Mul_eq_schoolbook, hcross]

theorem fp2Inv_zero : fp2Inv ⟨0, 0⟩ = ⟨0, 0⟩ := by
  refine toField_inj (fp2Inv_reduced _) (reduced2_mk p_pos p_pos) ?_
  rw [toField_fp2Inv, toField_mk_zero, star_zero, smul_zero]

/-! ### The commands -/

/-- A legal command that writes one `z` register yields what it writes. -/
theorem yieldsZ_writeZ {i : Instr} {s : State} {zd : ZReg} {v : Fp2}
    (he : exec i s = command i s (s.writeZ zd.toNat v)) (hwf : i.WellFormed) (hzd : legalZ zd = true)
    (hv : Reduced2 v) : YieldsZ i s zd.toNat v :=
  yieldsZ_of_exec (he.trans (command_legal s _ hwf)) (legalZ_bound hzd) hv

/-- Settles O35: each command writes its function's value, and a difference or negative of reduced operands wraps at most
once. -/
theorem fp2ComponentResults : Obligations.Fp2ComponentResults := by
  intro s zd za zb wd ws wt hred a b P sub
  have ha : Reduced2 a := hred.readZ _
  have hb : Reduced2 b := hred.readZ _
  have hneg : fp2Neg a = ⟨sub 0 a.x0, sub 0 a.x1⟩ :=
    (fp2Neg_eq_fp2Sub a).trans (fp2Sub_eq_ite (reduced2_mk p_pos p_pos) ha)
  refine ⟨fun h => ?_, fun h => ?_, fun h => ?_, fun h => ?_, fun h => ?_, fun h => ?_⟩
  · exact yieldsZ_writeZ rfl h (Bool.and_elim_left (Bool.and_elim_left h)) (fp2Add_reduced a b)
  · exact fp2Sub_eq_ite ha hb ▸
      yieldsZ_writeZ rfl h (Bool.and_elim_left (Bool.and_elim_left h)) (fp2Sub_reduced a b)
  · exact hneg ▸ yieldsZ_writeZ rfl h (Bool.and_elim_left h) (fp2Neg_reduced a)
  · exact yieldsZ_writeZ rfl h (Bool.and_elim_left h) (reduced2_mk (fpConst_lt _) p_pos)
  · exact yieldsZ_writeZ rfl h (Bool.and_elim_left (Bool.and_elim_left h))
      (reduced2_mk (fpConst_lt _) (fpConst_lt _))
  · exact predicateWord_eq_ite (fp2_beq_iff a b) ▸
      yieldsW_writePredicate rfl h (legalW_bound (Bool.and_elim_left (Bool.and_elim_left h)))

/-- Settles O36: the values written are those of the schoolbook formula. -/
theorem fp2ProductResults : Obligations.Fp2ProductResults := by
  intro s zd za zb a b P
  refine ⟨fun h => ?_, fun h => ?_⟩
  · exact fp2Mul_eq_schoolbook a b ▸
      yieldsZ_writeZ rfl h (Bool.and_elim_left (Bool.and_elim_left h)) (fp2Mul_reduced a b)
  · exact fp2Sqr_eq_schoolbook a ▸ yieldsZ_writeZ rfl h (Bool.and_elim_left h) (fp2Sqr_reduced a)

/-- Settles O37: the conjugate over the norm inverts what is not zero. -/
theorem fp2InvResult : Obligations.Fp2InvResult := by
  intro s zd za hred hwf
  refine ⟨fp2Inv (s.readZ za.toNat), yieldsZ_writeZ rfl hwf (Bool.and_elim_left hwf) (fp2Inv_reduced _),
    fp2Inv_reduced _, fun h => ?_, fun h => ?_⟩
  · rw [h, fp2Inv_zero]
  · rw [mul_comm]
    exact toField_fp2Inv_mul_self (mt (toField_eq_zero_iff (hred.readZ _)).mp h)

end Sys2Proof.Machine
end

section
/-! SUPPORT. The square root of the Fp2 unit (rules R150, R152): a real operand through the root of the Fp unit, any other
through the root of its norm. -/

namespace Sys2Proof.Machine

open Config (p)

/-! ### Powers, roots and residues in Fp (rules R118, R120, R124) -/

theorem fpIsqr_eq_true_iff {a : Nat} (ha : a < p) : fpIsqr a = true ↔ IsSquare (a : ZMod p) := by
  rw [fpIsqr, beq_iff_eq]
  constructor
  · intro h
    rw [← h, cast_fpSqr]
    exact IsSquare.sq _
  · exact fpSqr_fpSqrt_of_isSquare ha

theorem fpSqr_fpNeg (a : Nat) : fpSqr (fpNeg a) = fpSqr a := by
  refine (natCast_inj_of_lt (fpSqr_lt _) (fpSqr_lt _)).mp ?_
  rw [cast_fpSqr, cast_fpNeg, neg_sq, cast_fpSqr]

/-- FP_SQRT only chooses the sign of the power. -/
theorem fpSqr_fpPow_sqrtExp (a : Nat) : fpSqr (fpPow a Config.sqrtExp) = fpSqr (fpSqrt a) := by
  unfold fpSqrt
  dsimp only
  split
  · rfl
  · exact (fpSqr_fpNeg _).symm

theorem cast_fpSqrt_sq_of_isSquare {a : Nat} (ha : a < p) (h : IsSquare (a : ZMod p)) :
    ((fpSqrt a : Nat) : ZMod p) ^ 2 = a := by
  rw [← cast_fpSqr, fpSqr_fpSqrt_of_isSquare ha h]

theorem fpPow_zero {e : Nat} (h0 : e ≠ 0) (he : e < 2 ^ 32) : fpPow 0 e = 0 := by
  rw [fpPow_eq_pow_mod 0 he, Nat.zero_pow (Nat.pos_of_ne_zero h0), Nat.zero_mod]

theorem fpPow_zero_sqrtExp : fpPow 0 Config.sqrtExp = 0 := fpPow_zero (by decide) (by decide)

theorem fpSqrt_zero : fpSqrt 0 = 0 := by
  rw [fpSqrt_eq_ite, fpPow_zero_sqrtExp, if_pos (Nat.zero_mod 2)]

theorem fpHalf_fpMul_zero (v : Nat) : fpHalf (fpMul v 0) = 0 := by
  simp only [fpHalf, fpMul, red, Nat.mul_zero, Nat.zero_mul, Nat.zero_mod]

theorem two_ne_zero_zmod : (2 : ZMod p) ≠ 0 := by decide

/-! ### The candidates of case (b) (rule R150) -/

/-- `t0`, half the sum of the real part and the root of the norm. -/
def sqrtHalfSum (x : Fp2) : Nat := fpHalf (fpAdd x.x0 (fpSqrt (fp2Norm x)))

/-- The pair `(t1, t2)`. -/
def sqrtCandidate (x : Fp2) : Fp2 :=
  ⟨fpPow (sqrtHalfSum x) Config.sqrtExp, fpHalf (fpMul (fpPow (sqrtHalfSum x) Config.sqrtExpMinusOne) x.x1)⟩

theorem fp2Norm_lt (x : Fp2) : fp2Norm x < p := fpAdd_lt _ _

theorem fp2SqrtBranch_eq (x : Fp2) : fp2SqrtBranch x =
    if fpSqr (sqrtCandidate x).x0 = sqrtHalfSum x then sqrtCandidate x
    else ⟨(sqrtCandidate x).x1, fpNeg (sqrtCandidate x).x0⟩ := rfl

theorem two_mul_cast_sqrtHalfSum (x : Fp2) :
    2 * ((sqrtHalfSum x : Nat) : ZMod p) = x.x0 + (fpSqrt (fp2Norm x) : Nat) := by
  rw [sqrtHalfSum, two_mul_cast_fpHalf, cast_fpAdd]

theorem sqrtHalfSum_lt (x : Fp2) : sqrtHalfSum x < p := fpHalf_lt _

theorem sqrtHalfSum_eq_of_two_mul {x : Fp2} {t : Nat} (ht : t < p)
    (h : (x.x0 : ZMod p) + (fpSqrt (fp2Norm x) : Nat) = 2 * t) : sqrtHalfSum x = t := by
  have : Fact p.Prime := ⟨prime_p⟩
  exact (natCast_inj_of_lt (sqrtHalfSum_lt x) ht).mp
    (mul_left_cancel₀ two_ne_zero_zmod ((two_mul_cast_sqrtHalfSum x).trans h))

/-- The test `t1² = t0` asks whether `t0` is a square. -/
theorem cast_fpSqr_sqrtCandidate (x : Fp2) : ((fpSqr (sqrtCandidate x).x0 : Nat) : ZMod p) =
    (sqrtHalfSum x : Nat) * ((sqrtHalfSum x : Nat) : ZMod p) ^ (p / 2) := by
  rw [sqrtCandidate, fpSqr_fpPow_sqrtExp, cast_fpSqr, cast_fpSqrt_sq]

/-! ### Real operands (rule R152, cases (1) to (4)) -/

/-- The root of `a²` is the even one of `a` and `-a`. -/
theorem fpSqrt_fp2Norm_real {a : Nat} (ha : a < p) : fpSqrt (fp2Norm ⟨a, 0⟩) = if a % 2 = 0 then a else p - a := by
  have : Fact p.Prime := ⟨prime_p⟩
  have hp : p % 2 = 1 := by decide
  have hnorm : ((fp2Norm ⟨a, 0⟩ : Nat) : ZMod p) = (a : ZMod p) ^ 2 := by simp [fp2Norm]
  have heven := fpSqrt_even (fp2Norm ⟨a, 0⟩)
  have hsq : ((fpSqrt (fp2Norm ⟨a, 0⟩) : Nat) : ZMod p) ^ 2 = (a : ZMod p) ^ 2 := by
    rw [cast_fpSqrt_sq_of_isSquare (fp2Norm_lt _) (hnorm ▸ IsSquare.sq _), hnorm]
  rcases sq_eq_sq_iff_eq_or_eq_neg.mp hsq with h | h
  · rw [(natCast_inj_of_lt (fpSqrt_lt _) ha).mp h] at heven ⊢
    rw [if_pos heven]
  · rw [← cast_fpNeg] at h
    rw [(natCast_inj_of_lt (fpSqrt_lt _) (fpNeg_lt a)).mp h, fpNeg_eq_ite ha] at heven ⊢
    split_ifs at heven ⊢ <;> omega

theorem sqrtHalfSum_real_even {a : Nat} (ha : a < p) (h : a % 2 = 0) : sqrtHalfSum ⟨a, 0⟩ = a := by
  refine sqrtHalfSum_eq_of_two_mul ha ?_
  rw [fpSqrt_fp2Norm_real ha, if_pos h, two_mul]

theorem sqrtHalfSum_real_odd {a : Nat} (ha : a < p) (h : a % 2 = 1) : sqrtHalfSum ⟨a, 0⟩ = 0 := by
  refine sqrtHalfSum_eq_of_two_mul p_pos ?_
  rw [fpSqrt_fp2Norm_real ha, if_neg (by omega), Nat.cast_sub ha.le, ZMod.natCast_self]
  simp

theorem sqrtCandidate_real (a : Nat) : sqrtCandidate ⟨a, 0⟩ = ⟨fpPow (sqrtHalfSum ⟨a, 0⟩) Config.sqrtExp, 0⟩ :=
  congrArg (Fp2.mk _) (fpHalf_fpMul_zero _)

theorem fp2Sqrt_of_real_nonresidue {a : Nat} (ha : a < p) (h : ¬ IsSquare (a : ZMod p)) :
    fp2Sqrt ⟨a, 0⟩ = ⟨0, fpSqrt a⟩ := by
  have hisqr : fpIsqr a = false := Bool.eq_false_iff.mpr (mt (fpIsqr_eq_true_iff ha).mp h)
  rw [fp2Sqrt, if_pos ⟨rfl, hisqr⟩]

/-- Case (b): the branch, with the sign that makes its real part even. -/
theorem fp2Sqrt_of_general {x : Fp2} (h : x.x1 ≠ 0 ∨ fpIsqr x.x0 = true) :
    fp2Sqrt x = if fpIseven (fp2SqrtBranch x).x0 then fp2SqrtBranch x else fp2Neg (fp2SqrtBranch x) := by
  rw [fp2Sqrt, if_neg]
  rintro ⟨h1, h0⟩
  simp [h1, h0] at h

theorem fp2Sqrt_of_even_residue {a : Nat} (ha : a < p) (h : IsSquare (a : ZMod p)) (heven : a % 2 = 0) :
    fp2Sqrt ⟨a, 0⟩ = ⟨fpSqrt a, 0⟩ := by
  have hbranch : fp2SqrtBranch ⟨a, 0⟩ = ⟨fpPow a Config.sqrtExp, 0⟩ := by
    rw [fp2SqrtBranch_eq, sqrtCandidate_real, sqrtHalfSum_real_even ha heven, if_pos]
    exact (fpSqr_fpPow_sqrtExp a).trans (fpSqr_fpSqrt_of_isSquare ha h)
  rw [fp2Sqrt_of_general (x := ⟨a, 0⟩) (.inr ((fpIsqr_eq_true_iff ha).mpr h)), hbranch, fpSqrt]
  dsimp only
  split
  · rfl
  · rfl

/-- `t0 = 0`, so the candidates are 0 (conflict C7). -/
theorem fp2Sqrt_of_odd_residue {a : Nat} (ha : a < p) (h : IsSquare (a : ZMod p)) (hodd : a % 2 = 1) :
    fp2Sqrt ⟨a, 0⟩ = ⟨0, 0⟩ := by
  have hbranch : fp2SqrtBranch ⟨a, 0⟩ = ⟨0, 0⟩ := by
    rw [fp2SqrtBranch_eq, sqrtCandidate_real, sqrtHalfSum_real_odd ha hodd, fpPow_zero_sqrtExp, if_pos]
    rfl
  rw [fp2Sqrt_of_general (x := ⟨a, 0⟩) (.inr ((fpIsqr_eq_true_iff ha).mpr h)), hbranch]
  rfl

theorem fp2Sqrt_zero : fp2Sqrt ⟨0, 0⟩ = ⟨0, 0⟩ := by
  have hsq : IsSquare ((0 : Nat) : ZMod p) := Nat.cast_zero (R := ZMod p) ▸ IsSquare.zero
  rw [fp2Sqrt_of_even_residue p_pos hsq rfl, fpSqrt_zero]

/-- Settles O39: each class has its branch, and each root is the root of the Fp unit. -/
theorem fp2SqrtOfReal : Obligations.Fp2SqrtOfReal := by
  intro s zd za hred hwf him x0
  have hx0 : x0 < p := (hred.readZ _).1
  have hx : s.readZ za.toNat = ⟨x0, 0⟩ := by rw [← him]
  have hy : YieldsZ (.fp2Sqrt zd za) s zd.toNat (fp2Sqrt ⟨x0, 0⟩) :=
    hx ▸ yieldsZ_writeZ rfl hwf (Bool.and_elim_left hwf) (fp2Sqrt_reduced _)
  refine ⟨fun h => ?_, fun h => ?_, fun _ h heven => ?_, fun _ h hodd => ?_⟩
  · rwa [h, fp2Sqrt_zero] at hy
  · rw [fp2Sqrt_of_real_nonresidue hx0 h] at hy
    have hsq : fpSqrt x0 * fpSqrt x0 % p = p - x0 :=
      (fpSqr_fpSqrt_of_not_isSquare h).trans (fpNeg_of_not_isSquare hx0 h).1
    refine ⟨fpSqrt x0, hy, fpSqrt_even x0, ?_⟩
    change (_ + x0) % p = 0
    rw [← Nat.mod_add_mod, hsq, Nat.sub_add_cancel hx0.le, Nat.mod_self]
  · rw [fp2Sqrt_of_even_residue hx0 h heven] at hy
    exact ⟨fpSqrt x0, hy, fpSqrt_even x0, fpSqr_fpSqrt_of_isSquare hx0 h⟩
  · rwa [fp2Sqrt_of_odd_residue hx0 h hodd] at hy

/-! ### Operands that are not real (rule R152, cases (5) and (6)) -/

theorem fp2Neg_x0 (a : Fp2) : (fp2Neg a).x0 = fpNeg a.x0 := rfl

theorem fp2Sqrt_even (x : Fp2) : (fp2Sqrt x).x0 % 2 = 0 := by
  have hp : p % 2 = 1 := by decide
  have hlt := (fp2SqrtBranch_reduced x).1
  unfold fp2Sqrt
  dsimp only
  split
  · rfl
  · simp only [fpIseven, beq_iff_eq]
    split
    next h => exact h
    next h =>
      rw [fp2Neg_x0, fpNeg_eq_ite hlt, if_neg (by omega)]
      omega

theorem toField_fp2Sqrt_sq {x : Fp2} (h : x.x1 ≠ 0) : toField (fp2Sqrt x) ^ 2 = toField (fp2SqrtBranch x) ^ 2 := by
  rw [fp2Sqrt_of_general (.inl h)]
  split
  · rfl
  · rw [toField_fp2Neg, neg_sq]

theorem norm_toField (x : Fp2) : (toField x).norm = (x.x0 : ZMod p) ^ 2 + (x.x1 : ZMod p) ^ 2 := by
  simp [QuadraticAlgebra.norm_def, pow_two]

theorem sq_toField_re (z : Fp2) : (toField z ^ 2).re = (z.x0 : ZMod p) ^ 2 - (z.x1 : ZMod p) ^ 2 := by
  simp [pow_two, sub_eq_add_neg]

theorem sq_toField_im (z : Fp2) : (toField z ^ 2).im = 2 * (z.x0 : ZMod p) * z.x1 := by
  simp [pow_two]
  ring

/-- The swapped pair is `-i` times the pair. -/
theorem toField_swap_sq (u v : Nat) : toField ⟨v, fpNeg u⟩ ^ 2 = - toField ⟨u, v⟩ ^ 2 := by
  ext
  · simp only [QuadraticAlgebra.re_neg, sq_toField_re, cast_fpNeg]
    ring
  · simp only [QuadraticAlgebra.im_neg, sq_toField_im, cast_fpNeg]
    ring

/-- `t0 · (t0 - x0)` is the square of half the imaginary part, as `2·t0 - x0` is a root of the norm. -/
theorem sq_im_of_isSquare_norm {x : Fp2} (h : IsSquare (toField x).norm) :
    (x.x1 : ZMod p) ^ 2 = 4 * (sqrtHalfSum x : Nat) * ((sqrtHalfSum x : Nat) - x.x0) := by
  have hroot : ((fpSqrt (fp2Norm x) : Nat) : ZMod p) ^ 2 = (x.x0 : ZMod p) ^ 2 + (x.x1 : ZMod p) ^ 2 := by
    rw [cast_fpSqrt_sq_of_isSquare (fp2Norm_lt x) (by rwa [cast_fp2Norm]), cast_fp2Norm, norm_toField]
  have halpha : ((fpSqrt (fp2Norm x) : Nat) : ZMod p) = 2 * (sqrtHalfSum x : Nat) - x.x0 := by
    rw [two_mul_cast_sqrtHalfSum, add_sub_cancel_left]
  rw [halpha] at hroot
  linear_combination -hroot

theorem sqrtHalfSum_ne_zero {x : Fp2} (h : IsSquare (toField x).norm) (hx : (x.x1 : ZMod p) ≠ 0) :
    ((sqrtHalfSum x : Nat) : ZMod p) ≠ 0 := by
  have : Fact p.Prime := ⟨prime_p⟩
  intro h0
  have him := sq_im_of_isSquare_norm h
  rw [h0, mul_zero, zero_mul] at him
  exact pow_ne_zero 2 hx him

theorem cast_sqrtCandidate_x0 (x : Fp2) : ((sqrtCandidate x).x0 : ZMod p) =
    (sqrtHalfSum x : Nat) * ((sqrtHalfSum x : Nat) : ZMod p) ^ Config.sqrtExpMinusOne := by
  have hexp : Config.sqrtExp = Config.sqrtExpMinusOne + 1 := by decide
  rw [sqrtCandidate, cast_fpPow _ (by decide), hexp, pow_succ']

theorem two_mul_cast_sqrtCandidate_x1 (x : Fp2) : 2 * ((sqrtCandidate x).x1 : ZMod p) =
    ((sqrtHalfSum x : Nat) : ZMod p) ^ Config.sqrtExpMinusOne * x.x1 := by
  rw [sqrtCandidate, two_mul_cast_fpHalf, cast_fpMul, cast_fpPow _ (by decide)]

/-- The exponents of rule R150 give Euler's criterion: `2 · (p - 3) / 4 + 1 = (p - 1) / 2`. -/
theorem mul_pow_sqrtExpMinusOne_sq (t : ZMod p) : t * (t ^ Config.sqrtExpMinusOne) ^ 2 = t ^ (p / 2) := by
  have hexp : p / 2 = Config.sqrtExpMinusOne * 2 + 1 := by decide
  rw [hexp, ← pow_mul, ← pow_succ']

/-- The square of `(t1, t2)` is the operand times the quadratic character of `t0`. -/
theorem toField_sqrtCandidate_sq {x : Fp2} (h : IsSquare (toField x).norm) :
    toField (sqrtCandidate x) ^ 2 = ((sqrtHalfSum x : Nat) : ZMod p) ^ (p / 2) • toField x := by
  have : Fact p.Prime := ⟨prime_p⟩
  have him := sq_im_of_isSquare_norm h
  have ht1 := cast_sqrtCandidate_x0 x
  have ht2 := two_mul_cast_sqrtCandidate_x1 x
  have hchar := mul_pow_sqrtExpMinusOne_sq (sqrtHalfSum x : Nat)
  generalize ((sqrtHalfSum x : Nat) : ZMod p) ^ (p / 2) = e at *
  generalize ((sqrtHalfSum x : Nat) : ZMod p) ^ Config.sqrtExpMinusOne = u at *
  ext
  · refine mul_left_cancel₀ (mul_ne_zero two_ne_zero_zmod two_ne_zero_zmod) ?_
    rw [sq_toField_re, QuadraticAlgebra.re_smul, smul_eq_mul, toField_re, ht1]
    linear_combination -(2 * ((sqrtCandidate x).x1 : ZMod p) + u * x.x1) * ht2 - u ^ 2 * him +
      4 * (x.x0 : ZMod p) * hchar
  · rw [sq_toField_im, QuadraticAlgebra.im_smul, smul_eq_mul, toField_im, ht1]
    linear_combination (sqrtHalfSum x : ZMod p) * u * ht2 + (x.x1 : ZMod p) * hchar

theorem toField_fp2SqrtBranch_sq {x : Fp2} (h : IsSquare (toField x).norm) (hx : (x.x1 : ZMod p) ≠ 0) :
    toField (fp2SqrtBranch x) ^ 2 = toField x := by
  have : Fact p.Prime := ⟨prime_p⟩
  have h0 := sqrtHalfSum_ne_zero h hx
  have htest : fpSqr (sqrtCandidate x).x0 = sqrtHalfSum x ↔ ((sqrtHalfSum x : Nat) : ZMod p) ^ (p / 2) = 1 := by
    rw [← natCast_inj_of_lt (fpSqr_lt _) (sqrtHalfSum_lt x), cast_fpSqr_sqrtCandidate, mul_eq_left₀ h0]
  rw [fp2SqrtBranch_eq]
  split
  next hpos => rw [toField_sqrtCandidate_sq h, htest.mp hpos, one_smul]
  next hneg =>
    have hchar := (ZMod.pow_div_two_eq_neg_one_or_one p h0).resolve_left (mt htest.mpr hneg)
    rw [toField_swap_sq, toField_sqrtCandidate_sq h, hchar, neg_smul, one_smul, neg_neg]

/-- Settles O40: the branch squares to the operand when the norm has a root, and the norm of a square has one. -/
theorem fp2SqrtOfComplex : Obligations.Fp2SqrtOfComplex := by
  intro s zd za hred hwf him x norm
  have hx1 : (x.x1 : ZMod p) ≠ 0 := natCast_ne_zero_of_lt (hred.readZ _).2 him
  have hnorm : norm = (toField x).norm := (norm_toField x).symm
  refine ⟨fp2Sqrt x, yieldsZ_writeZ rfl hwf (Bool.and_elim_left hwf) (fp2Sqrt_reduced x), fp2Sqrt_reduced x,
    fp2Sqrt_even x, fun h => ?_, fun h hroot => ?_⟩
  · rw [toField_fp2Sqrt_sq him, toField_fp2SqrtBranch_sq (hnorm ▸ h) hx1]
  · rw [hnorm, ← hroot, map_pow] at h
    exact h (IsSquare.sq _)

end Sys2Proof.Machine
end

section
/-! SUPPORT. The commands of the point unit (rules R172 to R178): what each of its functions computes, case by case over the
field, and what each command leaves in its destination. -/

namespace Sys2Proof.Machine

open Config (p)

/-- A legal command that writes one `q` register yields what it writes. -/
theorem yieldsPoint_writePoint {i : Instr} {s : State} {qd : QReg} {R : Point}
    (he : exec i s = command i s (s.writePoint qd.toNat R)) (hwf : i.WellFormed) (hqd : legalQ qd = true)
    (hR : ReducedPoint R) : YieldsPoint i s qd.toNat R :=
  yieldsPoint_of_exec (he.trans (command_legal s _ hwf)) (legalQ_bound hqd) hR

/-! ### Doubling (rule R172) -/

@[simp] theorem xdbl_inf (E : Curve) : xdbl E inf = inf := if_pos rfl

/-- With `b = 0` the tangent's denominator `2by` is 0, and a division by 0 gives 0 (rule R151). -/
theorem toField_tangentSlope_of_b_zero {E : Curve} (P : Point) (hb : E.b = ⟨0, 0⟩) :
    toField (tangentSlope E P) = 0 := by
  have hden : toField (fp2Mul (fp2Mul (k2 2) E.b) P.y) = 0 := by simp [hb, toField_mk_zero]
  rw [tangentSlope, fp2Div_eq_zero _ hden, toField_mk_zero]

theorem xdblSpec_xdbl {E : Curve} {P : Point} (hE : ReducedCurve E) (hP : ReducedPoint P) :
    XdblSpec E P (xdbl E P) := by
  refine ⟨?_, fun hne hy => ?_⟩
  · rintro (rfl | hy)
    · exact xdbl_inf E
    · exact xdbl_of_two_torsion hy
  · rw [xdbl_generic hP hne hy]
    refine ⟨linePoint_reduced .., toField (tangentSlope E P), fun hb => ?_, toField_tangentSlope_of_b_zero P, ?_,
      toField_linePoint_y ..⟩
    · exact toField_tangentSlope_mul (mt (toField_eq_zero_iff hE.2).mp hb) (mt (toField_eq_zero_iff hP.2).mp hy)
    · rw [toField_linePoint_x]
      ring

/-- Settles O42: a legal XDBL writes `xdbl`, which follows the rule case by case. -/
theorem xdblResult : Obligations.XdblResult := by
  intro s qd qc qa hred hwf R
  exact ⟨yieldsPoint_writePoint rfl hwf (Bool.and_elim_left (Bool.and_elim_left hwf)) (xdbl_reduced _ _),
    xdblSpec_xdbl (hred.readCurve _) (hred.readPoint _)⟩

/-! ### Addition (rule R173) -/

/-- The line through two points that are neither equal nor opposite; a vertical one has no case of its own. -/
theorem xadd_line {E : Curve} {P Q : Point} (hP : P ≠ inf) (hQ : Q ≠ inf) (hy : P.y ≠ Q.y) (hopp : P.y ≠ fp2Neg Q.y) :
    xadd E P Q = linePoint E (chordSlope P Q) P Q.x := by
  rw [xadd, if_neg hP, if_neg hQ, if_neg (fun h => hy h.2), if_neg (fun h => hopp h.2)]
  rfl

/-- Between equal abscissas the chord's denominator is 0, and a division by 0 gives 0 (rule R151). -/
theorem toField_chordSlope_of_x_eq {P Q : Point} (hx : P.x = Q.x) : toField (chordSlope P Q) = 0 := by
  have hden : toField (fp2Sub Q.x P.x) = 0 := by simp [hx]
  rw [chordSlope, fp2Div_eq_zero _ hden, toField_mk_zero]

theorem toField_linePoint_slope_zero_x (E : Curve) {lam : Fp2} (P : Point) (hlam : toField lam = 0) :
    toField (linePoint E lam P P.x).x = - toField E.a - 2 * toField P.x := by
  rw [toField_linePoint_x, hlam]
  ring

theorem toField_linePoint_slope_zero_y (E : Curve) {lam : Fp2} (P : Point) (x2 : Fp2) (hlam : toField lam = 0) :
    toField (linePoint E lam P x2).y = - toField P.y := by
  rw [toField_linePoint_y, hlam]
  ring

theorem xaddSpec_xadd {E : Curve} {P Q : Point} (hE : ReducedCurve E) (hP : ReducedPoint P) (hQ : ReducedPoint Q) :
    XaddSpec E P Q (xadd E P Q) := by
  refine ⟨?_, ?_, fun hPi hQi => ⟨?_, fun hne hx hy => ?_, fun hx hy hopp => ?_, fun hx => ?_⟩⟩
  · rintro rfl
    exact xadd_inf_left E Q
  · rintro - rfl
    exact xadd_inf_right E P
  · rintro rfl
    rw [xadd_self]
    exact xdblSpec_xdbl hE hP
  · exact xadd_opposite hPi hQi hne hx (toField_inj hP.2 (fp2Neg_reduced _) (hy.trans (toField_fp2Neg _).symm))
  · have hopp' : P.y ≠ fp2Neg Q.y := fun h => hopp (h ▸ toField_fp2Neg _)
    have hlam := toField_chordSlope_of_x_eq hx
    rw [xadd_line hPi hQi hy hopp', ← hx]
    exact ⟨linePoint_reduced .., toField_linePoint_slope_zero_x E P hlam, toField_linePoint_slope_zero_y E P P.x hlam⟩
  · rw [xadd_chord hPi hQi hx]
    exact ⟨linePoint_reduced .., toField (chordSlope P Q), toField_chordSlope_mul (reduced_sub_ne_zero hP.1 hQ.1 hx),
      toField_linePoint_x .., toField_linePoint_y ..⟩

/-- Settles O43: a legal XADD writes `xadd`, which follows the rule case by case. -/
theorem xaddResult : Obligations.XaddResult := by
  intro s qd qc qa qb hred hwf R
  have hP := hred.readPoint qa.toNat
  have hQ := hred.readPoint qb.toNat
  have hqd : legalQ qd = true := Bool.and_elim_left (Bool.and_elim_left (Bool.and_elim_left hwf))
  exact ⟨yieldsPoint_writePoint rfl hwf hqd (xadd_reduced _ hP hQ), xaddSpec_xadd (hred.readCurve _) hP hQ⟩

/-! ### Repetition (rules R174 to R176) -/

theorem xdble_eq_iterate (E : Curve) (P : Point) (n : Nat) : xdble E P n = (xdbl E)^[n] P := by
  induction n generalizing P with
  | zero => rfl
  | succ n ih => exact ih (xdbl E P)

theorem xtple_eq_iterate (E : Curve) (P : Point) (n : Nat) : xtple E P n = (xtpl E)^[n] P := by
  induction n generalizing P with
  | zero => rfl
  | succ n ih => exact ih (xtpl E P)

/-- Settles O44: the loops of XDBLE and XTPLE are iterations of the double and of the triple. -/
theorem repeatedPointResults : Obligations.RepeatedPointResults := by
  intro s qd qc qa n hred E P
  have hP : ReducedPoint P := hred.readPoint _
  refine ⟨fun h => ?_, fun h => ?_, fun h => ?_⟩
  · exact yieldsPoint_writePoint rfl h (Bool.and_elim_left (Bool.and_elim_left h)) (xtpl_reduced E hP)
  · exact xdble_eq_iterate E P n.toNat ▸
      yieldsPoint_writePoint rfl h (Bool.and_elim_left (Bool.and_elim_left h)) (xdble_reduced E hP _)
  · exact xtple_eq_iterate E P n.toNat ▸
      yieldsPoint_writePoint rfl h (Bool.and_elim_left (Bool.and_elim_left h)) (xtple_reduced E hP _)

/-! ### The ladder (rule R177) -/

/-- What the ladder does with one bit of the scalar. -/
def ladderStep (E : Curve) (P : Point) (bit : Bool) (R : Point) : Point :=
  if bit then xadd E (xdbl E R) P else xdbl E R

theorem ladderLoop_succ (E : Curve) (P : Point) (k n : Nat) (R : Point) :
    ladderLoop E P k (n + 1) R = ladderLoop E P k n (ladderStep E P (k.testBit n) R) := rfl

/-- The loop seen from its last step: bit 0 comes after the bits of `k / 2`. -/
theorem ladderLoop_succ_last (E : Curve) (P : Point) (k n : Nat) (R : Point) :
    ladderLoop E P k (n + 1) R = ladderStep E P (k.testBit 0) (ladderLoop E P (k / 2) n R) := by
  induction n generalizing R with
  | zero => rfl
  | succ n ih => rw [ladderLoop_succ, ih, ladderLoop_succ E P (k / 2), Nat.testBit_succ]

theorem ladder_succ (E : Curve) (P : Point) (k m : Nat) :
    ladder E P k (m + 1) =
      if k % 2 = 1 then xadd E (xdbl E (ladder E P (k / 2) m)) P else xdbl E (ladder E P (k / 2) m) := by
  rw [ladder, ladderLoop_succ_last, ladderStep, Nat.testBit_zero]
  simp only [decide_eq_true_eq, ladder]

/-- The loop reads the `n` low bits of the scalar only. -/
theorem ladderLoop_mod_two_pow (E : Curve) (P : Point) (k : Nat) {m n : Nat} (h : n ≤ m) (R : Point) :
    ladderLoop E P (k % 2 ^ m) n R = ladderLoop E P k n R := by
  induction n generalizing R with
  | zero => rfl
  | succ n ih =>
    have hbit : (k % 2 ^ m).testBit n = k.testBit n := by simp [Nat.testBit_mod_two_pow, Nat.lt_of_succ_le h]
    rw [ladderLoop_succ, ladderLoop_succ, hbit, ih (Nat.le_of_succ_le h)]

theorem ladder_mod_two_pow (E : Curve) (P : Point) (k m : Nat) : ladder E P (k % 2 ^ m) m = ladder E P k m :=
  ladderLoop_mod_two_pow E P k le_rfl inf

theorem ladder_zero_scalar (E : Curve) (P : Point) (m : Nat) : ladder E P 0 m = inf := by
  induction m with
  | zero => rfl
  | succ m ih => simp [ladder_succ, ih]

theorem ladder_eq_inf_of_mod {E : Curve} {P : Point} {k m : Nat} (h : k % 2 ^ m = 0) : ladder E P k m = inf := by
  rw [← ladder_mod_two_pow, h, ladder_zero_scalar]

/-- Settles O45: the scan from the highest bit down is Horner's scheme. -/
theorem ladderResult : Obligations.LadderResult := by
  intro s qd qc qa ws msb hred hwf E P
  have hyields : YieldsPoint (.ladder qd qc qa ws msb) s qd.toNat (ladder E P (s.wWord ws.toNat).toNat msb.toNat) :=
    yieldsPoint_writePoint rfl hwf (Bool.and_elim_left (Bool.and_elim_left hwf))
      (ladder_reduced E (hred.readPoint _) _ _)
  exact ⟨hyields, fun _ => rfl, ladder_succ E P, fun k m => (ladder_mod_two_pow E P k m).symm,
    fun h => (ladder_eq_inf_of_mod h ▸ hyields : YieldsPoint _ s qd.toNat inf)⟩

/-! ### The j-invariant (rule R178) -/

theorem jinv_of_sq_eq_four {E : Curve} (h : toField E.a ^ 2 = 4) : jinv E = ⟨0, 0⟩ :=
  fp2Div_eq_zero _ (by simp [h])

theorem toField_jinv_mul {E : Curve} (h : toField E.a ^ 2 ≠ 4) :
    toField (jinv E) * (toField E.a ^ 2 - 4) = 256 * (toField E.a ^ 2 - 3) ^ 3 := by
  have hden : toField (fp2Sub (fp2Sqr E.a) (k2 4)) = toField E.a ^ 2 - 4 := by simp
  have hne : toField (fp2Sub (fp2Sqr E.a) (k2 4)) ≠ 0 := hden ▸ sub_ne_zero.mpr h
  rw [← hden, jinv, toField_fp2Div_mul_cancel _ hne]
  simp only [toField_fp2Mul, toField_fp2Sqr, toField_fp2Sub, toField_k2, Nat.cast_ofNat]
  ring

/-- Settles O46: JINV divides by `a² - 4`, and a division by 0 gives (0, 0) (rule R151). -/
theorem jinvResult : Obligations.JinvResult := by
  intro s zd qc hwf a
  exact ⟨jinv (s.readCurve qc.toNat), yieldsZ_writeZ rfl hwf (Bool.and_elim_left hwf) (jinv_reduced _), jinv_reduced _,
    jinv_of_sq_eq_four, toField_jinv_mul⟩

end Sys2Proof.Machine
end

section
/-! SUPPORT. The isogenies of degree 2, 3 and 4 (rules R200 to R206): the guard of the point maps, the rational functions past
it, what the six commands yield, and that the image of a point lies on the image curve. -/

namespace Sys2Proof.Machine

open Config (p)

/-! ### The curve maps (rules R201, R203, R205) -/

/-- A legal command that writes a curve to one `q` register yields what it writes. -/
theorem yieldsCurve_writeCurve {i : Instr} {s : State} {qd : QReg} {F : Curve}
    (he : exec i s = command i s (s.writeCurve qd.toNat F)) (hwf : i.WellFormed) (hqd : legalQ qd = true)
    (hF : ReducedCurve F) : YieldsCurve i s qd.toNat F :=
  yieldsCurve_of_exec (he.trans (command_legal s _ hwf)) (legalQ_bound hqd) hF

section
variable (K : Point) (E : Curve)

theorem toField_curve2iso_a : toField (curve2iso K E).a = 2 * (1 - 2 * toField K.x ^ 2) := by simp [curve2iso]

theorem toField_curve2iso_b : toField (curve2iso K E).b = toField K.x * toField E.b := by simp [curve2iso]

theorem toField_curve3iso_a : toField (curve3iso K E).a =
    (toField E.a * toField K.x - 6 * toField K.x ^ 2 + 6) * toField K.x := by simp [curve3iso]

theorem toField_curve3iso_b : toField (curve3iso K E).b = toField E.b * toField K.x ^ 2 := by simp [curve3iso]

theorem toField_curve4iso_a : toField (curve4iso K E).a = 4 * toField K.x ^ 4 - 2 := by
  simp only [curve4iso, toField_fp2Sub, toField_fp2Mul, toField_fp2Sqr, toField_k2, Nat.cast_ofNat]
  ring

theorem two_mul_toField_curve4iso_b : 2 * toField (curve4iso K E).b =
    -((toField K.x ^ 3 + toField K.x) * toField E.b) := by
  rw [curve4iso, toField_fp2Neg, mul_neg, two_mul_toField_fp2Half]
  simp only [toField_fp2Mul, toField_fp2Add, toField_fp2Sqr, toField_k2, Nat.cast_one]
  ring

end

/-- Settles O48: each command writes its curve map, whose coefficients over the field are those of the rule. -/
theorem isogenyCurveResults : Obligations.IsogenyCurveResults := by
  intro s qd qk qc x a b
  let K := s.readPoint qk.toNat
  let E := s.readCurve qc.toNat
  refine ⟨fun h => ⟨curve2iso K E, ?_, curve2iso_reduced K E, toField_curve2iso_a K E, toField_curve2iso_b K E⟩,
    fun h => ⟨curve3iso K E, ?_, curve3iso_reduced K E, toField_curve3iso_a K E, toField_curve3iso_b K E⟩,
    fun h => ⟨curve4iso K E, ?_, curve4iso_reduced K E, toField_curve4iso_a K E, two_mul_toField_curve4iso_b K E⟩⟩
  · exact yieldsCurve_writeCurve rfl h (Bool.and_elim_left (Bool.and_elim_left h)) (curve2iso_reduced K E)
  · exact yieldsCurve_writeCurve rfl h (Bool.and_elim_left (Bool.and_elim_left h)) (curve3iso_reduced K E)
  · exact yieldsCurve_writeCurve rfl h (Bool.and_elim_left (Bool.and_elim_left h)) (curve4iso_reduced K E)

/-! ### The guard of the point maps (rule R200) -/

theorem eq_fp2Zero_iff {a : Fp2} (ha : Reduced2 a) : a = fp2Zero ↔ toField a = 0 := (toField_eq_zero_iff ha).symm

@[simp] theorem fp2Sub_self (a : Fp2) : fp2Sub a a = fp2Zero :=
  (eq_fp2Zero_iff (fp2Sub_reduced a a)).mpr (by simp)

theorem toField_eval4isoU (x4 x : Fp2) : toField (eval4isoU x4 x) = eval4Denominator x4 x := by
  simp [eval4isoU, eval4Denominator, mul_assoc]

theorem eval4isoU_eq_fp2Zero_iff (x4 x : Fp2) : eval4isoU x4 x = fp2Zero ↔ eval4Denominator x4 x = 0 := by
  rw [← toField_eval4isoU]
  exact eq_fp2Zero_iff (fp2Sub_reduced _ _)

section
variable (s : State) (qd qk qa : QReg)

theorem yieldsPoint_eval2iso (h : (Instr.eval2iso qd qk qa).WellFormed) : YieldsPoint (.eval2iso qd qk qa) s qd.toNat
    (eval2iso (s.readPoint qk.toNat) (s.readPoint qa.toNat)) :=
  yieldsPoint_writePoint rfl h (Bool.and_elim_left (Bool.and_elim_left h)) (eval2iso_reduced _ _)

theorem yieldsPoint_eval3iso (h : (Instr.eval3iso qd qk qa).WellFormed) : YieldsPoint (.eval3iso qd qk qa) s qd.toNat
    (eval3iso (s.readPoint qk.toNat) (s.readPoint qa.toNat)) :=
  yieldsPoint_writePoint rfl h (Bool.and_elim_left (Bool.and_elim_left h)) (eval3iso_reduced _ _)

theorem yieldsPoint_eval4iso (h : (Instr.eval4iso qd qk qa).WellFormed) : YieldsPoint (.eval4iso qd qk qa) s qd.toNat
    (eval4iso (s.readPoint qk.toNat) (s.readPoint qa.toNat)) :=
  yieldsPoint_writePoint rfl h (Bool.and_elim_left (Bool.and_elim_left h)) (eval4iso_reduced _ _)

end

section
variable {K P : Point}

theorem eval2iso_eq_inf (h : P = inf ∨ P.x = K.x) : eval2iso K P = inf := by
  obtain h | h := h
  · exact if_pos h
  · simp [eval2iso, h]

theorem eval3iso_eq_inf (h : P = inf ∨ P.x = K.x) : eval3iso K P = inf := by
  obtain h | h := h
  · exact if_pos h
  · simp [eval3iso, h]

theorem eval4iso_eq_inf (h : P = inf ∨ P.x = K.x ∨ eval4Denominator K.x P.x = 0) : eval4iso K P = inf := by
  obtain h | h | h := h
  · exact if_pos h
  · simp [eval4iso, h]
  · simp [eval4iso, (eval4isoU_eq_fp2Zero_iff _ _).mpr h]

end

/-- Settles O49: the guard answers the sentinel, and the command writes that. -/
theorem pointMapGuard : Obligations.PointMapGuard := by
  intro s qd qk qa _ K P
  refine ⟨fun h => ⟨fun hwf => ?_, fun hwf => ?_⟩, fun h hwf => ?_⟩
  · exact eval2iso_eq_inf h ▸ yieldsPoint_eval2iso s qd qk qa hwf
  · exact eval3iso_eq_inf h ▸ yieldsPoint_eval3iso s qd qk qa hwf
  · exact eval4iso_eq_inf h ▸ yieldsPoint_eval4iso s qd qk qa hwf

/-! ### The point maps past the guard (rules R202, R204, R206) -/

section
variable {n d : Fp2} {D : FieldFp2}

theorem toField_fp2Div_mul (hd : toField d = D) (hD : D ≠ 0) : toField (fp2Div n d) * D = toField n := by
  subst hd
  exact toField_fp2Div_mul_cancel n hD

theorem toField_fp2Mul_fp2Div_mul {y : Fp2} (hd : toField d = D) (hD : D ≠ 0) :
    toField (fp2Mul y (fp2Div n d)) * D = toField y * toField n := by
  rw [toField_fp2Mul, mul_assoc, toField_fp2Div_mul hd hD]

end

/-- The factor `-2` of the degree-4 map is the constant `p - 2`. -/
theorem natCast_p_sub_two : ((p - 2 : Nat) : FieldFp2) = -2 := by
  have h : ((p - 2 : Nat) : ZMod p) = -2 := by decide +kernel
  ext <;> simp [QuadraticAlgebra.re_ofNat, QuadraticAlgebra.im_ofNat, h]

section
variable {R : Type*} [CommRing R]

/-- The polynomial `g` of rule R206 in the kernel abscissa `k` and the point's `x`. -/
def isogeny4Poly (k x : R) : R :=
  x ^ 4 * (k ^ 2 + 1) - 4 * x ^ 3 * (k ^ 3 + k) + 2 * x ^ 2 * (k ^ 4 + 5 * k ^ 2) - 4 * x * (k ^ 3 + k) + k ^ 2 + 1

/-- What links `g` to the numerator and the denominator of the degree-4 abscissa, whatever the curve. -/
theorem isogeny4Poly_sq (k x : R) {N D : R} (hN : N = -(x * (x * k ^ 2 + x - 2 * k) * (x * k - 1) ^ 2))
    (hD : D = (x - k) ^ 2 * (2 * x * k - k ^ 2 - 1)) :
    k ^ 4 * isogeny4Poly k x ^ 2 = N ^ 2 + (4 * k ^ 4 - 2) * N * D + D ^ 2 := by
  subst hN hD
  unfold isogeny4Poly
  ring

end

theorem toField_eval4isoG (x4 x : Fp2) : toField (eval4isoG x4 x) = isogeny4Poly (toField x4) (toField x) := by
  simp only [eval4isoG, toField_fp2Add, toField_fp2Sub, toField_fp2Mul, toField_fp2Sqr, toField_k2, Nat.cast_one,
    Nat.cast_ofNat, isogeny4Poly]
  ring

section
variable {K P : Point} (hK : ReducedPoint K) (hP : ReducedPoint P) (hne : P ≠ inf) (hx : P.x ≠ K.x)
include hK hP hx

theorem abscissa_diff_ne_zero : toField P.x - toField K.x ≠ 0 := reduced_sub_ne_zero hK.1 hP.1 hx.symm

theorem fp2Sub_abscissa_ne_fp2Zero : fp2Sub P.x K.x ≠ fp2Zero := by
  rw [Ne, eq_fp2Zero_iff (fp2Sub_reduced _ _), toField_fp2Sub]
  exact abscissa_diff_ne_zero hK hP hx

include hne

theorem eval2iso_eq_map : eval2iso K P = eval2isoMap K.x (fp2Sub P.x K.x) P := by
  rw [eval2iso, if_neg hne, if_neg (fp2Sub_abscissa_ne_fp2Zero hK hP hx)]

theorem eval3iso_eq_map : eval3iso K P = eval3isoMap K.x (fp2Sub P.x K.x) P := by
  rw [eval3iso, if_neg hne, if_neg (fp2Sub_abscissa_ne_fp2Zero hK hP hx)]

theorem eval4iso_eq_map (hu : eval4Denominator K.x P.x ≠ 0) :
    eval4iso K P = eval4isoMap K.x (fp2Sub P.x K.x) (eval4isoU K.x P.x) P := by
  rw [eval4iso, if_neg hne, if_neg]
  exact not_or.mpr ⟨fp2Sub_abscissa_ne_fp2Zero hK hP hx, mt (eval4isoU_eq_fp2Zero_iff _ _).mp hu⟩

theorem eval2Spec_eval2iso : Eval2Spec K.x P (eval2iso K P) := by
  have := isDomain_fieldFp2
  have hd := abscissa_diff_ne_zero hK hP hx
  refine ⟨eval2iso_reduced K P, ?_, ?_⟩ <;> rw [eval2iso_eq_map hK hP hne hx]
  · exact (toField_fp2Div_mul (by simp) hd).trans (by simp)
  · exact (toField_fp2Mul_fp2Div_mul (by simp) (pow_ne_zero 2 hd)).trans (by simp)

theorem eval3Spec_eval3iso : Eval3Spec K.x P (eval3iso K P) := by
  have := isDomain_fieldFp2
  have hd := abscissa_diff_ne_zero hK hP hx
  refine ⟨eval3iso_reduced K P, ?_, ?_⟩ <;> rw [eval3iso_eq_map hK hP hne hx]
  · exact (toField_fp2Div_mul (by simp) (pow_ne_zero 2 hd)).trans (by simp)
  · exact (toField_fp2Mul_fp2Div_mul (by simp [pow_succ]) (pow_ne_zero 3 hd)).trans (by simp [mul_assoc])

theorem eval4Spec_eval4iso (hu : eval4Denominator K.x P.x ≠ 0) : Eval4Spec K.x P (eval4iso K P) := by
  have := isDomain_fieldFp2
  have hd := abscissa_diff_ne_zero hK hP hx
  refine ⟨eval4iso_reduced K P, ?_, ?_⟩ <;> rw [eval4iso_eq_map hK hP hne hx hu]
  · refine (toField_fp2Div_mul ?_ (mul_ne_zero (pow_ne_zero 2 hd) hu)).trans ?_
    · simp [toField_eval4isoU]
    · simp
  · refine (toField_fp2Mul_fp2Div_mul ?_ (mul_ne_zero (pow_ne_zero 3 hd) (pow_ne_zero 2 hu))).trans ?_
    · simp [toField_eval4isoU, pow_succ]
    · simp [toField_eval4isoG, natCast_p_sub_two, isogeny4Poly, mul_assoc]

end

/-- Settles O50: past the guard each map's coordinates are the quotients of the rule. -/
theorem pointMapResults : Obligations.PointMapResults := by
  intro s qd qk qa hred K P hne hx
  have hK : ReducedPoint K := hred.readPoint _
  have hP : ReducedPoint P := hred.readPoint _
  exact ⟨fun hwf => ⟨_, yieldsPoint_eval2iso s qd qk qa hwf, eval2Spec_eval2iso hK hP hne hx⟩,
    fun hwf => ⟨_, yieldsPoint_eval3iso s qd qk qa hwf, eval3Spec_eval3iso hK hP hne hx⟩,
    fun hwf hu => ⟨_, yieldsPoint_eval4iso s qd qk qa hwf, eval4Spec_eval4iso hK hP hne hx hu⟩⟩

/-! ### Images on the image curve, in a commutative ring without zero divisors (rules R201 to R206) -/

section
variable {R : Type*} [CommRing R] [IsDomain R]

/-- A point given by quotients, `X = N / D` and `Y = M / D'` with `D'² = c·D³`, is on the curve if its numerators meet the
curve's equation without denominators. -/
theorem onMontgomery_of_quotients {a b X Y N M D D' c : R} (hX : X * D = N) (hY : Y * D' = M) (hD : D ≠ 0) (hc : c ≠ 0)
    (hsq : D' ^ 2 = c * D ^ 3) (h : b * M ^ 2 = c * (N ^ 3 + a * N ^ 2 * D + N * D ^ 2)) : OnMontgomery a b X Y := by
  unfold OnMontgomery
  subst hX hY
  refine mul_left_cancel₀ (mul_ne_zero hc (pow_ne_zero 3 hD)) ?_
  linear_combination h - b * Y ^ 2 * hsq

variable {a b k x y X Y : R}

/-- Degree 2: `k` is a root of `x² + ax + 1`, so `a` can be eliminated. -/
theorem onMontgomery_isogeny2 (hk : k ^ 2 + a * k + 1 = 0) (hP : OnMontgomery a b x y) (hd : x - k ≠ 0)
    (hX : X * (x - k) = x ^ 2 * k - x) (hY : Y * (x - k) ^ 2 = y * (x ^ 2 * k - 2 * x * k ^ 2 + k)) :
    OnMontgomery (2 * (1 - 2 * k ^ 2)) (k * b) X Y := by
  refine onMontgomery_of_quotients hX hY hd hd (by ring) ?_
  unfold OnMontgomery at hP
  let m := x ^ 2 * k - 2 * x * k ^ 2 + k
  linear_combination k * m ^ 2 * hP + m ^ 2 * x ^ 2 * hk

/-- Degree 3: `k` is a root of the 3-division polynomial, linear in `a`, so `a` can be eliminated again. -/
theorem onMontgomery_isogeny3 (hk : 3 * k ^ 4 + 4 * a * k ^ 3 + 6 * k ^ 2 = 1) (hP : OnMontgomery a b x y)
    (hd : x - k ≠ 0) (hX : X * (x - k) ^ 2 = x * (x * k - 1) ^ 2)
    (hY : Y * (x - k) ^ 3 = y * (x * k - 1) * (x ^ 2 * k - 3 * x * k ^ 2 + x + k)) :
    OnMontgomery ((a * k - 6 * k ^ 2 + 6) * k) (b * k ^ 2) X Y := by
  refine onMontgomery_of_quotients hX hY (pow_ne_zero 2 hd) one_ne_zero (by ring) ?_
  unfold OnMontgomery at hP
  linear_combination (k * (x * k - 1) * (x ^ 2 * k - 3 * x * k ^ 2 + x + k)) ^ 2 * hP +
    x ^ 3 * (x * k - 1) ^ 2 * (1 - k ^ 2) * (x ^ 2 - 2 * k * x + 1) * hk

/-- Degree 4: `k` is an abscissa of order four, a root of a polynomial that is again linear in `a`; `b'` is a half.
With `a` eliminated, both sides differ by a multiple of `isogeny4Poly_sq`. -/
theorem onMontgomery_isogeny4 {b' u : R} (h2 : (2 : R) ≠ 0)
    (hk : k ^ 4 + 2 * a * k ^ 3 + 6 * k ^ 2 + 2 * a * k + 1 = 0) (hP : OnMontgomery a b x y) (hd : x - k ≠ 0)
    (hu : u = 2 * x * k - k ^ 2 - 1) (hu0 : u ≠ 0)
    (hX : X * ((x - k) ^ 2 * u) = -(x * (x * k ^ 2 + x - 2 * k) * (x * k - 1) ^ 2))
    (hY : Y * ((x - k) ^ 3 * u ^ 2) = y * (-2 * k ^ 2) * (x * k - 1) * isogeny4Poly k x)
    (hb : 2 * b' = -((k ^ 3 + k) * b)) : OnMontgomery (4 * k ^ 4 - 2) b' X Y := by
  refine onMontgomery_of_quotients hX hY (mul_ne_zero (pow_ne_zero 2 hd) hu0) hu0 (by ring) ?_
  unfold OnMontgomery at hP
  subst hu
  refine mul_left_cancel₀ h2 ?_
  let t := x * k - 1
  let m := -2 * k ^ 2 * t * isogeny4Poly k x
  linear_combination (y * m) ^ 2 * hb - (k ^ 3 + k) * m ^ 2 * hP - 2 * (k ^ 2 * x * t * isogeny4Poly k x) ^ 2 * hk -
    2 * (2 * x * k - k ^ 2 - 1) * x * (x * k ^ 2 + x - 2 * k) * t ^ 2 * isogeny4Poly_sq k x rfl rfl

end

/-! ### Images on the image curve, in the model -/

section
variable {E : Curve} {K P : Point}

theorem OnCurve.ne_inf_of_reduced (hE : ReducedCurve E) (hb : E.b ≠ ⟨0, 0⟩) (h : OnCurve E P) : P ≠ inf :=
  h.ne_inf (mt (toField_eq_zero_iff hE.2).mp hb)

/-- A point of order two that is not the origin has an abscissa that is a root of `x² + ax + 1`. -/
theorem OnCurve.root_of_order_two (hK : ReducedPoint K) (h : OnCurve E K) (hy : K.y = ⟨0, 0⟩) (hx : K.x ≠ ⟨0, 0⟩) :
    toField K.x ^ 2 + toField E.a * toField K.x + 1 = 0 := by
  have := isDomain_fieldFp2
  have hk : toField K.x ≠ 0 := mt (toField_eq_zero_iff hK.1).mp hx
  rw [OnCurve, hy, toField_mk_zero] at h
  refine (mul_eq_zero.mp ?_).resolve_left hk
  linear_combination -h

end

/-- Settles O51: the map's quotients, with the root the kernel point gives, meet the image curve's equation. -/
theorem eval2LandsOnImageCurve : Obligations.Eval2LandsOnImageCurve := by
  intro E K P hE hK hP hb hKE hKy hKx hPE hx
  have := isDomain_fieldFp2
  have hne := hPE.ne_inf_of_reduced hE hb
  obtain ⟨-, hX, hY⟩ := eval2Spec_eval2iso hK hP hne hx
  rw [onCurve_iff, toField_curve2iso_a, toField_curve2iso_b]
  exact onMontgomery_isogeny2 (hKE.root_of_order_two hK hKy hKx) hPE (abscissa_diff_ne_zero hK hP hx) hX hY

/-- Settles O52: the map's quotients meet the image curve's equation at a root of the 3-division polynomial. -/
theorem eval3LandsOnImageCurve : Obligations.Eval3LandsOnImageCurve := by
  intro E K P hE hK hP hb hk hPE hx
  have := isDomain_fieldFp2
  have hne := hPE.ne_inf_of_reduced hE hb
  obtain ⟨-, hX, hY⟩ := eval3Spec_eval3iso hK hP hne hx
  rw [onCurve_iff, toField_curve3iso_a, toField_curve3iso_b]
  exact onMontgomery_isogeny3 hk hPE (abscissa_diff_ne_zero hK hP hx) hX hY

/-- Settles O60: the map's quotients meet the image curve's equation at the abscissa of a point of order four. -/
theorem eval4LandsOnImageCurve : Obligations.Eval4LandsOnImageCurve := by
  intro E K P hE hK hP hb hk hPE hx hu
  have := isDomain_fieldFp2
  have hne := hPE.ne_inf_of_reduced hE hb
  obtain ⟨-, hX, hY⟩ := eval4Spec_eval4iso hK hP hne hx hu
  rw [onCurve_iff, toField_curve4iso_a]
  exact onMontgomery_isogeny4 two_ne_zero_fieldFp2 hk hPE (abscissa_diff_ne_zero hK hP hx) rfl hu hX hY
    (two_mul_toField_curve4iso_b K E)

end Sys2Proof.Machine
end

section
/-! SUPPORT. The walks (rules R207 to R209): their steps, their ends, and what the two walk commands leave in the registers,
which do not overlap when the operands are legal. -/

namespace Sys2Proof.Machine

/-! ### Steps and ends (rules R207, R208) -/

theorem iso2e_zero (v : Walk) : iso2e 0 v = v := rfl

theorem iso2e_odd (n : Nat) (v : Walk) :
    iso2e (2 * n + 1) v = iso2e (2 * n) (walkStep curve2iso eval2iso (xdble v.E v.S (2 * n)) v) := by
  have hodd : (2 * n + 1) % 2 = 1 := by omega
  have heven : ¬ 2 * n % 2 = 1 := by omega
  have hhalf : (2 * n + 1) / 2 = 2 * n / 2 := by omega
  rw [iso2e, iso2e, if_pos hodd, if_neg heven, hhalf, Nat.add_sub_cancel]

theorem iso2e_even (n : Nat) (v : Walk) :
    iso2e (2 * n + 2) v = iso2e (2 * n) (walkStep curve4iso eval4iso (xdble v.E v.S (2 * n)) v) := by
  have heven : ¬ (2 * n + 2) % 2 = 1 := by omega
  have heven' : ¬ 2 * n % 2 = 1 := by omega
  have hhalf : (2 * n + 2) / 2 = n + 1 := by omega
  have hhalf' : 2 * n / 2 = n := by omega
  rw [iso2e, iso2e, if_neg heven, if_neg heven', hhalf, hhalf', walk4]

/-- Settles O54: a point map takes its own kernel point to the sentinel, so the last step leaves the generator there. -/
theorem walkSteps : Obligations.WalkSteps :=
  ⟨iso2e_zero, fun _ => rfl, iso2e_odd, iso2e_even, fun _ _ => rfl,
    fun _ => ⟨eval2iso_eq_inf (.inr rfl), eval4iso_eq_inf (.inr (.inl rfl)), eval3iso_eq_inf (.inr rfl)⟩⟩

/-! ### Quads that do not overlap -/

/-- Two quads without a common word. -/
def Apart (r k : Nat) : Prop := r + 4 ≤ k ∨ k + 4 ≤ r

theorem Apart.not_words {r k j : Nat} (h : Apart r k) (hj : Words k 4 j) : ¬ Words r 4 j := by
  unfold Apart Words at *
  omega

theorem apart_of_dvd {r k : Nat} (hr : 4 ∣ r) (hk : 4 ∣ k) (h : r ≠ k) : Apart r k := by
  unfold Apart
  omega

section
variable {r k : Nat} (s : State)

theorem readPoint_writePoint_apart (P : Point) (h : Apart r k) : (s.writePoint r P).readPoint k = s.readPoint k :=
  State.readPoint_congr fun _ hj => State.fWord_writePoint_outside s P (h.not_words hj)

theorem readCurve_writePoint_apart (P : Point) (h : Apart r k) : (s.writePoint r P).readCurve k = s.readCurve k :=
  State.readCurve_congr fun _ hj => State.fWord_writePoint_outside s P (h.not_words hj)

theorem readPoint_writePointIf_apart (P : Option Point) (h : P.isSome → Apart r k) :
    (s.writePointIf r P).readPoint k = s.readPoint k :=
  State.readPoint_congr fun _ hj => State.fWord_writePointIf_outside s P fun hs => (h hs).not_words hj

theorem readCurve_writePointIf_apart (P : Option Point) (h : P.isSome → Apart r k) :
    (s.writePointIf r P).readCurve k = s.readCurve k :=
  State.readCurve_congr fun _ hj => State.fWord_writePointIf_outside s P fun hs => (h hs).not_words hj

end

/-! ### The walk commands (rule R209) -/

/-- A present auxiliary point is what its register reads. -/
theorem eq_readPoint_writePointIf (s : State) {r : Nat} {P : Option Point} (hr : P.isSome → r + 3 < 64)
    (hP : ∀ R, P = some R → ReducedPoint R) :
    P = if P.isSome then some ((s.writePointIf r P).readPoint r) else none := by
  cases P with
  | none => rfl
  | some P =>
    obtain ⟨hx, hy⟩ := hP P rfl
    have hread := State.readPoint_writePoint_same s (hr rfl) (Fits.of_reduced hx) (Fits.of_reduced hy)
    exact congrArg some hread.symm

section
variable {qc qs qa : QReg} {a2 a1 : Bool}

theorem legalWalk_bounds (h : legalWalk qc qs qa a2 a1 = true) :
    qc.toNat + 3 < 64 ∧ qs.toNat + 3 < 64 ∧ qa.toNat + 3 < 64 ∧ (a2 = true → qa.toNat + 4 + 3 < 64) := by
  obtain ⟨hc, hs, ha, h56, -⟩ := legalWalk_iff.mp h
  refine ⟨legalQ_bound (legalQ_iff.mpr hc), legalQ_bound (legalQ_iff.mpr hs), legalQ_bound (legalQ_iff.mpr ha),
    fun h2 => ?_⟩
  have := h56 h2
  omega

theorem legalWalk_apart (h : legalWalk qc qs qa a2 a1 = true) : Apart qs.toNat qc.toNat ∧
    (a1 = true → Apart qa.toNat qc.toNat ∧ Apart qa.toNat qs.toNat) ∧
    (a2 = true → Apart (qa.toNat + 4) qc.toNat ∧ Apart (qa.toNat + 4) qs.toNat) := by
  obtain ⟨hc, hs, ha, -, hcs, h1, h2⟩ := legalWalk_iff.mp h
  have ha4 : 4 ∣ qa.toNat + 4 := Dvd.dvd.add ha (dvd_refl 4)
  refine ⟨apart_of_dvd hs hc (mt BitVec.eq_of_toNat_eq hcs.symm), fun e => ⟨?_, ?_⟩, fun e => ⟨?_, ?_⟩⟩
  · exact apart_of_dvd ha hc (mt BitVec.eq_of_toNat_eq (h1 e).1)
  · exact apart_of_dvd ha hs (mt BitVec.eq_of_toNat_eq (h1 e).2)
  · exact apart_of_dvd ha4 hc (h2 e).1
  · exact apart_of_dvd ha4 hs (h2 e).2

end

section
variable {qc qs qa : QReg} {v : Walk} (s : State) (h : legalWalk qc qs qa v.A2.isSome v.A1.isSome = true)
  (hv : ReducedWalk v)
include h hv

theorem readCurve_writeWalk : (s.writeWalk qc qs qa v).readCurve qc.toNat = v.E := by
  obtain ⟨hsc, h1, h2⟩ := legalWalk_apart h
  obtain ⟨ha, hb⟩ := hv.1
  rw [State.writeWalk, readCurve_writePointIf_apart _ _ fun e => (h2 e).1,
    readCurve_writePointIf_apart _ _ fun e => (h1 e).1, readCurve_writePoint_apart _ _ hsc,
    State.readCurve_writeCurve_same _ (legalWalk_bounds h).1 (Fits.of_reduced ha) (Fits.of_reduced hb)]

theorem readPoint_writeWalk_generator : (s.writeWalk qc qs qa v).readPoint qs.toNat = v.S := by
  obtain ⟨-, h1, h2⟩ := legalWalk_apart h
  obtain ⟨-, ⟨hx, hy⟩, -⟩ := hv
  rw [State.writeWalk, readPoint_writePointIf_apart _ _ fun e => (h2 e).2,
    readPoint_writePointIf_apart _ _ fun e => (h1 e).2,
    State.readPoint_writePoint_same _ (legalWalk_bounds h).2.1 (Fits.of_reduced hx) (Fits.of_reduced hy)]

theorem eq_readPoint_writeWalk_aux1 :
    v.A1 = if v.A1.isSome then some ((s.writeWalk qc qs qa v).readPoint qa.toNat) else none := by
  obtain ⟨-, -, ha, -⟩ := legalWalk_bounds h
  obtain ⟨-, -, hA1, -⟩ := hv
  rw [State.writeWalk, readPoint_writePointIf_apart _ _ fun _ => .inr le_rfl]
  exact eq_readPoint_writePointIf _ (fun _ => ha) hA1

theorem eq_readPoint_writeWalk_aux2 :
    v.A2 = if v.A2.isSome then some ((s.writeWalk qc qs qa v).readPoint (qa.toNat + 4)) else none := by
  obtain ⟨-, -, -, ha4⟩ := legalWalk_bounds h
  obtain ⟨-, -, -, hA2⟩ := hv
  exact eq_readPoint_writePointIf _ ha4 hA2

end

theorem fWord_writeWalk_outside (s : State) {qc qs qa : QReg} (v : Walk) {j : Nat}
    (h : ¬ WalkWords qc qs qa v.A2.isSome v.A1.isSome j) : (s.writeWalk qc qs qa v).fWord j = s.fWord j := by
  simp only [WalkWords, not_or, not_and] at h
  obtain ⟨hc, hs, h1, h2⟩ := h
  rw [State.writeWalk, State.fWord_writePointIf_outside _ _ h2, State.fWord_writePointIf_outside _ _ h1,
    State.fWord_writePoint_outside _ _ hs, State.fWord_writeCurve_outside _ _ hc]

theorem sameButF_writeWalk (s : State) (qc qs qa : QReg) (v : Walk) :
    SameButF s (s.writeWalk qc qs qa v) (WalkWords qc qs qa v.A2.isSome v.A1.isSome) :=
  ⟨fun _ _ h => fWord_writeWalk_outside s v h, by simp, by simp, ⟨by simp, by simp, by simp, by simp⟩,
    ⟨by simp, by simp, by simp⟩⟩

/-- A legal command that writes a walk's results in place yields them. -/
theorem yieldsWalk_writeWalk {i : Instr} {s : State} {qc qs qa : QReg} {a2 a1 : Bool} {v : Walk}
    (he : exec i s = command i s (s.writeWalk qc qs qa v)) (hwf : i.WellFormed)
    (hl : legalWalk qc qs qa a2 a1 = true) (hv : ReducedWalk v) (hA : v.A1.isSome = a1 ∧ v.A2.isSome = a2) :
    YieldsWalk i s qc qs qa a2 a1 v := by
  obtain ⟨rfl, rfl⟩ := hA
  exact ⟨_, he.trans (command_legal s _ hwf), readCurve_writeWalk s hl hv, readPoint_writeWalk_generator s hl hv,
    eq_readPoint_writeWalk_aux1 s hl hv, eq_readPoint_writeWalk_aux2 s hl hv, sameButF_writeWalk s qc qs qa v⟩

theorem readWalk_aux (s : State) (qc qs qa : QReg) (a2 a1 : Bool) :
    (s.readWalk qc qs qa a2 a1).A1.isSome = a1 ∧ (s.readWalk qc qs qa a2 a1).A2.isSome = a2 := by
  cases a1 <;> cases a2 <;> exact ⟨rfl, rfl⟩

/-- Settles O53: a walk keeps which auxiliary points it carries, so it writes back the registers it read. -/
theorem walkCommandResults : Obligations.WalkCommandResults := by
  intro s qc qs qa a2 a1 e hred v
  have hv : ReducedWalk v := hred.readWalk qc qs qa a2 a1
  obtain ⟨h1, h2⟩ : v.A1.isSome = a1 ∧ v.A2.isSome = a2 := readWalk_aux s qc qs qa a2 a1
  refine ⟨fun h => yieldsWalk_writeWalk rfl h h (iso2e_reduced _ hv) ?_,
    fun h => yieldsWalk_writeWalk rfl h h (iso3e_reduced _ hv) ?_⟩
  · exact (iso2e_aux e.toNat v).imp (·.trans h1) (·.trans h2)
  · exact (iso3e_aux e.toNat v).imp (·.trans h1) (·.trans h2)

end Sys2Proof.Machine
end

section
/-! SUPPORT. The protocol operations (rules R231 to R239): the key of a pair of points, the curve and points recovered from a
key, and what the six commands leave in the registers. -/

namespace Sys2Proof.Machine

/-! ### The key of a pair of points (rule R231) -/

theorem fp2Neg_fp2Neg {a : Fp2} (ha : Reduced2 a) : fp2Neg (fp2Neg a) = a :=
  toField_inj (fp2Neg_reduced _) ha (by rw [toField_fp2Neg, toField_fp2Neg, neg_neg])

/-- `P - P` has the sentinel's abscissa even where rule R173 does not give the sentinel: the negative of the sentinel is none,
and the negative of a point may be the sentinel. -/
theorem xadd_ptNeg_self_x (E : Curve) {P : Point} (hP : ReducedPoint P) : (xadd E P (ptNeg P)).x = ⟨0, 0⟩ := by
  by_cases hi : P = inf
  · subst hi
    rw [xadd_inf_left]
    rfl
  by_cases hni : ptNeg P = inf
  · rw [hni, xadd_inf_right]
    exact congrArg Point.x hni
  by_cases hne : P = ptNeg P
  · have hy : P.y = ⟨0, 0⟩ := (eq_fp2Neg_iff hP.2).mp (congrArg Point.y hne)
    rw [← hne, xadd_self, xdbl_of_two_torsion hy]
    rfl
  · rw [xadd_opposite hi hni hne rfl (fp2Neg_fp2Neg hP.2).symm]
    rfl

theorem getXr_self (E : Curve) {P : Point} (hP : ReducedPoint P) : getXr E P P = ⟨P.x, P.x, ⟨0, 0⟩⟩ := by
  rw [getXr, xadd_ptNeg_self_x E hP]

/-- Settles O55: a legal GETXR writes the key of its two points, and `P - P` has abscissa 0. -/
theorem getxrResult : Obligations.GetxrResult := by
  intro s zd qc qa qb hred hwf E P Q
  have hP : ReducedPoint P := hred.readPoint _
  have hzd : legalPK zd = true := Bool.and_elim_left (Bool.and_elim_left (Bool.and_elim_left hwf))
  obtain ⟨hkP, hkQ, hkR⟩ := getXr_reduced E hP (hred.readPoint qb.toNat)
  have hyields : YieldsPk (.getxr zd qc qa qb) s zd.toNat (getXr E P Q) :=
    yieldsPk_of_exec (command_legal s _ hwf) (legalPK_bound hzd) hkP hkQ hkR
  refine ⟨hyields, fun hPQ => ?_⟩
  rwa [← hPQ, getXr_self E hP] at hyields

/-! ### The recovered curve and points (rule R232) -/

theorem toField_curveRhs (a x : Fp2) :
    toField (curveRhs a x) = toField x ^ 3 + toField a * toField x ^ 2 + toField x := by
  simp only [curveRhs, toField_fp2Add, toField_fp2Mul, toField_fp2Sqr]
  ring

/-- The number whose square is the numerator of the coefficient's quotient. -/
def recoverNumRoot (k : PublicKey) : Fp2 :=
  fp2Sub (fp2Sub (fp2Sub (k2 1) (fp2Mul k.xP k.xQ)) (fp2Mul k.xP k.xR)) (fp2Mul k.xQ k.xR)

/-- The denominator of the coefficient's quotient. -/
def recoverDen (k : PublicKey) : Fp2 := fp2Mul (fp2Mul (k2 4) (fp2Mul k.xP k.xQ)) k.xR

theorem recoverA_eq (k : PublicKey) : recoverA k =
    fp2Sub (fp2Sub (fp2Sub (fp2Div (fp2Sqr (recoverNumRoot k)) (recoverDen k)) k.xP) k.xQ) k.xR := rfl

theorem toField_recoverNumRoot (k : PublicKey) : toField (recoverNumRoot k) =
    1 - toField k.xP * toField k.xQ - toField k.xP * toField k.xR - toField k.xQ * toField k.xR := by
  simp [recoverNumRoot]

theorem toField_recoverDen (k : PublicKey) :
    toField (recoverDen k) = 4 * (toField k.xP * toField k.xQ * toField k.xR) := by
  simp [recoverDen, mul_assoc]

theorem toField_recoverA (k : PublicKey) : toField (recoverA k) =
    toField (fp2Div (fp2Sqr (recoverNumRoot k)) (recoverDen k)) - toField k.xP - toField k.xQ - toField k.xR := by
  simp only [recoverA_eq, toField_fp2Sub]

theorem toField_recoverDen_ne_zero {k : PublicKey} (h : toField k.xP * toField k.xQ * toField k.xR ≠ 0) :
    toField (recoverDen k) ≠ 0 := by
  have := isDomain_fieldFp2
  have hfour : (4 : FieldFp2) = 2 ^ 2 := by norm_num
  rw [toField_recoverDen, hfour]
  exact mul_ne_zero (pow_ne_zero 2 two_ne_zero_fieldFp2) h

theorem toField_recoverA_mul {k : PublicKey} (h : toField k.xP * toField k.xQ * toField k.xR ≠ 0) :
    (toField (recoverA k) + toField k.xP + toField k.xQ + toField k.xR) *
        (4 * toField k.xP * toField k.xQ * toField k.xR) =
      (1 - toField k.xP * toField k.xQ - toField k.xP * toField k.xR - toField k.xQ * toField k.xR) ^ 2 := by
  have hquot := toField_fp2Div_mul_cancel (fp2Sqr (recoverNumRoot k)) (toField_recoverDen_ne_zero h)
  rw [toField_fp2Sqr, toField_recoverNumRoot, toField_recoverDen] at hquot
  rw [toField_recoverA, ← hquot]
  ring

/-- A zero abscissa makes the denominator 0, and a division by 0 gives 0 (rule R151). -/
theorem toField_recoverA_of_zero {k : PublicKey} (h : toField k.xP * toField k.xQ * toField k.xR = 0) :
    toField (recoverA k) = -(toField k.xP + toField k.xQ + toField k.xR) := by
  have hden : toField (recoverDen k) = 0 := by rw [toField_recoverDen, h, mul_zero]
  rw [toField_recoverA, fp2Div_eq_zero _ hden, toField_mk_zero]
  ring

/-- The curve of coefficient `a` and `b = 1` that a key determines. -/
def recoveredCurve (k : PublicKey) : Curve := ⟨recoverA k, ⟨1, 0⟩⟩

/-- The point of abscissa `x` that the root of the curve's right-hand side gives. -/
def recoveredPoint (a x : Fp2) : Point := ⟨x, fp2Sqrt (curveRhs a x)⟩

/-- Only the sign of `Q` depends on the test of rule R232. -/
theorem recover_eq (k : PublicKey) : recover k =
    let E := recoveredCurve k
    let P := recoveredPoint E.a k.xP
    let Q := recoveredPoint E.a k.xQ
    ⟨E, P, if (xadd E P (ptNeg Q)).x = k.xR then Q else ptNeg Q⟩ := by
  unfold recover
  dsimp only
  split
  next h => exact congrArg (Recovered.mk _ _) (if_pos h).symm
  next h => exact congrArg (Recovered.mk _ _) (if_neg h).symm

theorem recoverSpec_recover (k : PublicKey) : RecoverSpec k (recover k).E (recover k).P (recover k).Q := by
  rw [recover_eq]
  exact ⟨fp2Sub_reduced _ _, rfl, toField_recoverA_mul, toField_recoverA_of_zero, curveRhs (recoverA k) k.xP,
    curveRhs (recoverA k) k.xQ, fp2Add_reduced _ _, fp2Add_reduced _ _, toField_curveRhs _ _, toField_curveRhs _ _, rfl,
    fun h => if_pos h, fun h => if_neg h⟩

section
variable (s : State) {r : Nat} {E : Curve} {P Q : Point}

theorem readCurve_writeT3 (hr : r + 11 < 64) (hE : ReducedCurve E) : (s.writeT3 r E P Q).readCurve r = E := by
  obtain ⟨ha, hb⟩ := hE
  rw [State.writeT3, readCurve_writePoint_apart _ _ (.inr (by omega)), readCurve_writePoint_apart _ _ (.inr le_rfl),
    State.readCurve_writeCurve_same _ (by omega) (Fits.of_reduced ha) (Fits.of_reduced hb)]

theorem readPoint_writeT3_first (hr : r + 11 < 64) (hP : ReducedPoint P) :
    (s.writeT3 r E P Q).readPoint (r + 4) = P := by
  obtain ⟨hx, hy⟩ := hP
  rw [State.writeT3, readPoint_writePoint_apart _ _ (.inr le_rfl),
    State.readPoint_writePoint_same _ (by omega) (Fits.of_reduced hx) (Fits.of_reduced hy)]

theorem readPoint_writeT3_second (hr : r + 11 < 64) (hQ : ReducedPoint Q) :
    (s.writeT3 r E P Q).readPoint (r + 8) = Q := by
  obtain ⟨hx, hy⟩ := hQ
  exact State.readPoint_writePoint_same _ hr (Fits.of_reduced hx) (Fits.of_reduced hy)

end

theorem yieldsT3_of_exec {i : Instr} {s : State} {r : Nat} {E : Curve} {P Q : Point}
    (h : exec i s = .next (s.writeT3 r E P Q)) (hr : r + 11 < 64) (hE : ReducedCurve E) (hP : ReducedPoint P)
    (hQ : ReducedPoint Q) : YieldsT3 i s r E P Q :=
  ⟨_, h, readCurve_writeT3 s hr hE, readPoint_writeT3_first s hr hP, readPoint_writeT3_second s hr hQ,
    sameButF_writeT3 s r E P Q⟩

/-- Settles O56: a legal RECOVER writes the curve and points that its key determines. -/
theorem recoverResult : Obligations.RecoverResult := by
  intro s qd za hred hwf
  obtain ⟨hE, hP, hQ⟩ := recover_reduced (k := s.readPk za.toNat) (hred.readZ _) (hred.readZ _)
  exact ⟨_, _, _, yieldsT3_of_exec (command_legal s _ hwf) (legalT3_bound (Bool.and_elim_left hwf)) hE hP hQ,
    recoverSpec_recover _⟩

/-! ### Key generation (rules R233, R234, R236, R239) -/

theorem kernel_zero_scalar (E : Curve) (P Q : Point) (msb : Nat) : kernel E P Q 0 msb = P := by
  rw [kernel, ladder_zero_scalar, xadd_inf_right]

/-- A legal protocol command under the lock, its scalar in range, yields the key of the walk whose key it writes. -/
theorem exists_yieldsPk_getXr {i : Instr} {s : State} {zd : PkReg} {k bound : Nat} {v : Walk}
    (he : exec i s = protocolCommand i k bound s (s.writePk zd.toNat (walkKey v))) (hwf : i.WellFormed)
    (hlocked : s.locked = true) (hk : k < bound) (hzd : legalPK zd = true) (hv : ReducedWalk v)
    (haux : v.A1.isSome ∧ v.A2.isSome) :
    ∃ E S A1 A2, v = ⟨E, S, some A1, some A2⟩ ∧ YieldsPk i s zd.toNat (getXr E A1 A2) := by
  obtain ⟨hkP, hkQ, hkR⟩ := walkKey_reduced hv
  have hyields : YieldsPk i s zd.toNat (walkKey v) :=
    yieldsPk_of_exec (he.trans (protocolCommand_ready s _ hwf hlocked hk)) (legalPK_bound hzd) hkP hkQ hkR
  obtain ⟨E, S, A1, A2⟩ := v
  obtain ⟨h1, h2⟩ := haux
  obtain ⟨P, rfl⟩ := Option.isSome_iff_exists.mp h1
  obtain ⟨Q, rfl⟩ := Option.isSome_iff_exists.mp h2
  exact ⟨E, S, P, Q, rfl, hyields⟩

/-- The walk that ISOGEN2 starts, before its first step (rule R233). -/
def State.keyWalk2 (s : State) (k : Nat) : Walk :=
  ⟨s.startCurve, kernel s.startCurve s.baseP2 s.baseQ2 k 15, some s.baseP3, some s.baseQ3⟩

/-- The walk that ISOGEN3 starts, before its first step (rule R234). -/
def State.keyWalk3 (s : State) (k : Nat) : Walk :=
  ⟨s.startCurve, kernel s.startCurve s.baseP3 s.baseQ3 k 12, some s.baseP2, some s.baseQ2⟩

theorem State.Reduced.keyWalk2 {s : State} (h : s.Reduced) (k : Nat) : ReducedWalk (s.keyWalk2 k) :=
  reducedWalk_mk h.startCurve (kernel_reduced _ (h.prmPoint 4) (h.prmPoint 8) _ _) (h.prmPoint 12) (h.prmPoint 16)

theorem State.Reduced.keyWalk3 {s : State} (h : s.Reduced) (k : Nat) : ReducedWalk (s.keyWalk3 k) :=
  reducedWalk_mk h.startCurve (kernel_reduced _ (h.prmPoint 12) (h.prmPoint 16) _ _) (h.prmPoint 4) (h.prmPoint 8)

/-- Settles O57: each command writes the key of its walk, which keeps both auxiliary points to its end. -/
theorem isogenResults : Obligations.IsogenResults := by
  intro s zd ws hred hlocked prm2 pt E0 k
  refine ⟨fun hwf hk => ?_, fun hwf hk => ?_, kernel_zero_scalar .., kernel_zero_scalar ..⟩
  · exact exists_yieldsPk_getXr rfl hwf hlocked hk (Bool.and_elim_left hwf) (iso2e_reduced 15 (hred.keyWalk2 k))
      (iso2e_aux 15 (s.keyWalk2 k))
  · exact exists_yieldsPk_getXr rfl hwf hlocked hk (Bool.and_elim_left hwf) (iso3e_reduced 8 (hred.keyWalk3 k))
      (iso3e_aux 8 (s.keyWalk3 k))

/-! ### Key exchange (rules R235, R236, R237) -/

/-- A legal protocol command under the lock, its scalar in range, yields the j-invariant it writes. -/
theorem yieldsZ_jinv {i : Instr} {s : State} {zd : ZReg} {k bound : Nat} {E : Curve}
    (he : exec i s = protocolCommand i k bound s (s.writeZ zd.toNat (jinv E))) (hwf : i.WellFormed)
    (hlocked : s.locked = true) (hk : k < bound) (hzd : legalZ zd = true) : YieldsZ i s zd.toNat (jinv E) :=
  yieldsZ_of_exec (he.trans (protocolCommand_ready s _ hwf hlocked hk)) (legalZ_bound hzd) (jinv_reduced E)

/-- Settles O58: each command writes the j-invariant at the end of the walk from the recovered curve. -/
theorem isoexResults : Obligations.IsoexResults := by
  intro s zd za ws hred hlocked k
  refine ⟨fun hwf hk => ⟨_, _, _, recoverSpec_recover _, ?_⟩, fun hwf hk => ⟨_, _, _, recoverSpec_recover _, ?_⟩⟩
  · exact yieldsZ_jinv rfl hwf hlocked hk (Bool.and_elim_left (Bool.and_elim_left hwf))
  · exact yieldsZ_jinv rfl hwf hlocked hk (Bool.and_elim_left (Bool.and_elim_left hwf))

end Sys2Proof.Machine
end

section
/-! SUPPORT. Commands and the lock (rules R250 to R253): the 41 commands that the lock does not gate, the two setup commands
while the bank is unlocked, and the setup sequence as a run. -/

namespace Sys2Proof.Machine

/-! ### Commands that do not see the lock (rules R253, R271) -/

/-- `s` with another value of STATUS.LOCKED. -/
def State.withLock (s : State) (b : Bool) : State := { s with locked := b }

/-- An update of the register files does not see the lock. -/
theorem FileUpdate.withLock {g : State → State} (hg : FileUpdate g) (s : State) (b : Bool) :
    g (s.withLock b) = (g s).withLock b :=
  calc g (s.withLock b) = (s.withLock b).withFiles (g s) := hg.files (s.withLock b) s
    _ = (s.withFiles (g s)).withLock b := rfl
    _ = (g s).withLock b := by rw [← hg.frame s]

theorem FileUpdate.keeps {g : State → State} (hg : FileUpdate g) (s : State) :
    SameStatus s (g s) ∧ (g s).prm = s.prm ∧ SameHost s (g s) := by
  rw [hg.frame s]
  exact ⟨SameStatus.refl s, rfl, SameHost.refl s⟩

/-- Settles O19: such a command passes its one check, that of its operands, and updates the register files, which do not see
the lock. -/
theorem ungatedCommandsComplete : Obligations.UngatedCommandsComplete := by
  intro s i hwf hs hp
  obtain ⟨g, hg, he⟩ := exec_ungated hs hp
  have completes (u : State) : exec i u = .next (g u) := (he u).trans (command_legal u _ hwf)
  obtain ⟨hstatus, hprm, hhost⟩ := hg.keeps s
  refine ⟨g s, completes s, hstatus, hprm, hhost, fun b => ?_⟩
  calc exec i (s.withLock b) = .next (g (s.withLock b)) := completes _
    _ = .next ((g s).withLock b) := by rw [hg.withLock]

/-! ### The two setup commands, unlocked (rules R250, R252) -/

/-- Settles O29: both commands pass the check of the lock; PRM_CONST writes its one slot. -/
theorem setupCommandResults : Obligations.SetupCommandResults := by
  intro s hl
  constructor
  · intro slot ws hslot hws
    have hwf : (Instr.prmConst slot ws).WellFormed := Bool.and_eq_true_iff.mpr ⟨legalS_iff.mpr hslot, legalW_iff.mpr hws⟩
    exact ⟨_, setupCommand_unlocked s _ hwf hl, prmWord_writePrm_fpConst s (Nat.lt_succ_of_le hslot) _,
      sameButPrm_writePrm s _ _⟩
  · exact setupCommand_unlocked (i := .plock) s _ rfl hl

/-! ### Runs -/

theorem run_succ_of_step {s t : State} (h : step s = .next t) (n : Nat) : core.run (n + 1) s = core.run n t := by
  have hcore : core.step s = .next t := h
  simp only [Host.Core.run, hcore]

theorem run_add {m : Nat} {s t : State} (h : core.run m s = .next t) (n : Nat) : core.run (m + n) s = core.run n t := by
  induction m generalizing s with
  | zero =>
    cases h
    rw [Nat.zero_add]
  | succ m ih =>
    obtain ⟨u, hu⟩ := stepAlwaysHasNextState s
    rw [run_succ_of_step hu] at h
    rw [Nat.succ_add, run_succ_of_step hu, ih h]

/-! ### The setup sequence (rule R251) -/

/-- The two transactions that bring the constant `entry.1` into the slot `entry.2`. -/
def loadEvents (entry : Word × Nat) : List HostEvent :=
  [hostWriteW 0 entry.1, issue (encode (.prmConst (BitVec.ofNat 6 entry.2) 0))]

theorem setupSequence_eq (staticParams : Vector Word 20) :
    setupSequence staticParams = staticParams.toList.zipIdx.flatMap loadEvents ++ [issue (encode .plock)] := rfl

theorem length_flatMap_loadEvents (entries : List (Word × Nat)) :
    (entries.flatMap loadEvents).length = 2 * entries.length := by
  induction entries with
  | nil => rfl
  | cons entry entries ih =>
    rw [List.flatMap_cons, List.length_append, ih, List.length_cons, Nat.mul_succ, Nat.add_comm]
    rfl

/-- `t` is `s` after the constants `l` have gone into the slots from `first` on: the lower slots, `f`, LOCKED and FAULT are as
they were. -/
structure Loads (l : List Word) (first : Nat) (s t : State) : Prop where
  locked : t.locked = s.locked
  fault : t.fault = s.fault
  f : t.f = s.f
  lower : ∀ k, k < first → k < 20 → t.prmWord k = s.prmWord k
  slots : ∀ (k : Nat) (h : k < l.length), (t.prmWord (first + k)).toNat = l[k].toNat % 0x0cd07fff

theorem Loads.nil (first : Nat) (s : State) : Loads [] first s s :=
  ⟨rfl, rfl, rfl, fun _ _ _ => rfl, fun _ h => absurd h (Nat.not_lt_zero _)⟩

theorem Loads.cons {v : Word} {l : List Word} {first : Nat} {s t u : State} (hfirst : first < 20)
    (hv : Loads [v] first s t) (hl : Loads l (first + 1) t u) : Loads (v :: l) first s u where
  locked := hl.locked.trans hv.locked
  fault := hl.fault.trans hv.fault
  f := hl.f.trans hv.f
  lower k hk h20 := (hl.lower k (by omega) h20).trans (hv.lower k hk h20)
  slots k hk := by
    cases k with
    | zero =>
      rw [Nat.add_zero, hl.lower first (Nat.lt_succ_self first) hfirst]
      exact hv.slots 0 Nat.zero_lt_one
    | succ k =>
      rw [Nat.add_succ, ← Nat.succ_add]
      exact hl.slots k (Nat.lt_of_succ_lt_succ hk)

theorem step_hostWriteW {s : State} {k : Nat} {v : Word} {rest : List HostEvent} (hk : k < 8)
    (hp : s.pending = hostWriteW k v :: rest) : step s = .next ((s.taken rest).writeW k v) :=
  (step_pending hp).trans (portWrite_w _ v hk (wPort_toNat hk))

theorem step_prmConst {s : State} {slot : Nat} {rest : List HostEvent} (hslot : slot < 20) (hl : s.locked = false)
    (hf : s.fault = false) (hp : s.pending = issue (encode (.prmConst (BitVec.ofNat 6 slot) 0)) :: rest) :
    ∃ t, step s = .next t ∧ t.pending = rest ∧ Loads [s.wWord 0] slot s t := by
  have toNat_slot : (BitVec.ofNat 6 slot).toNat = slot := by rw [BitVec.toNat_ofNat]; omega
  obtain ⟨t, ht, hval, hsame⟩ :=
    (setupCommandResults (s.taken rest) hl).1 (BitVec.ofNat 6 slot) 0 (by omega) (by decide)
  rw [toNat_slot] at hval hsame
  obtain ⟨hprm, hregs, -, ⟨hlocked, hfault, -⟩, hpending, -⟩ := hsame
  refine ⟨t, (stepRunsDecodedCommand s _ _ rest hp hf (decode_encode _)).trans ht, hpending, hlocked, hfault, hregs,
    fun k hk h20 => hprm k h20 (Nat.ne_of_lt hk), fun k hk => ?_⟩
  obtain rfl : k = 0 := Nat.lt_one_iff.mp hk
  exact hval

theorem step_plock {s : State} {rest : List HostEvent} (hl : s.locked = false) (hf : s.fault = false)
    (hp : s.pending = issue (encode .plock) :: rest) : step s = .next ((s.taken rest).withLock true) :=
  (stepRunsDecodedCommand s _ _ rest hp hf (decode_encode .plock)).trans (setupCommandResults (s.taken rest) hl).2

/-- PRM_CONST reads the constant that the host has just written to `w0`. -/
theorem run_loadEvents {s : State} {v : Word} {slot : Nat} {rest : List HostEvent} (hslot : slot < 20)
    (hl : s.locked = false) (hf : s.fault = false) (hp : s.pending = loadEvents (v, slot) ++ rest) :
    ∃ t, core.run 2 s = .next t ∧ t.pending = rest ∧ Loads [v] slot s t := by
  have hwrite := step_hostWriteW (by decide) hp
  obtain ⟨t, hconst, hpt, hload⟩ := step_prmConst (s := (s.taken _).writeW 0 v) hslot hl hf rfl
  rw [wWord_writeW_same _ (by decide)] at hload
  obtain ⟨hlocked, hfault, hregs, hlower, hslots⟩ := hload
  exact ⟨t, (run_succ_of_step hwrite 1).trans (run_succ_of_step hconst 0), hpt, hlocked, hfault, hregs, hlower, hslots⟩

theorem run_loads {l : List Word} {first : Nat} {s : State} {rest : List HostEvent} (hlen : first + l.length ≤ 20)
    (hl : s.locked = false) (hf : s.fault = false) (hp : s.pending = (l.zipIdx first).flatMap loadEvents ++ rest) :
    ∃ t, core.run (2 * l.length) s = .next t ∧ t.pending = rest ∧ Loads l first s t := by
  induction l generalizing first s with
  | nil => exact ⟨s, rfl, hp, Loads.nil first s⟩
  | cons v l ih =>
    rw [List.length_cons] at hlen ⊢
    rw [List.zipIdx_cons, List.flatMap_cons, List.append_assoc] at hp
    have hfirst : first < 20 := by omega
    obtain ⟨t, ht, hpt, hv⟩ := run_loadEvents hfirst hl hf hp
    obtain ⟨u, hu, hpu, hrest⟩ := ih (by omega) (hv.locked.trans hl) (hv.fault.trans hf) hpt
    refine ⟨u, ?_, hpu, hv.cons hfirst hrest⟩
    rw [Nat.mul_succ, Nat.add_comm, run_add ht, hu]

/-- Settles O59: 40 steps load the 20 constants, by induction on those still to load, and PLOCK is the last. -/
theorem setupSequenceLocksBank : Obligations.SetupSequenceLocksBank := by
  intro staticParams s hl hf hp
  rw [setupSequence_eq] at hp
  have hlen : staticParams.toList.length = 20 := Vector.length_toList
  constructor
  · rw [hp, List.length_append, length_flatMap_loadEvents, List.length_zipIdx, hlen, List.length_singleton]
  · obtain ⟨u, hu, hpu, hload⟩ := run_loads (by omega) hl hf hp
    rw [hlen] at hu
    have hlock := step_plock (hload.locked.trans hl) (hload.fault.trans hf) hpu
    refine ⟨(u.taken []).withLock true, (run_add hu 1).trans (run_succ_of_step hlock 0), rfl, rfl, hload.fault.trans hf,
      hload.f, fun k hk => ?_⟩
    have hslot := hload.slots k (hlen.symm ▸ hk)
    rwa [Nat.zero_add, Vector.getElem_toList] at hslot

end Sys2Proof.Machine
end

section
/-! SUPPORT. The checks on a command in the order of rule R260 (rules R260 to R269): the fault that each failing check
records, the completion of a command that fails none, and the state in which a fault is latched. -/

namespace Sys2Proof.Machine

/-! ### The checks after the operands, one by one (rules R265, R266, R267) -/

theorem setupCommand_locked {i : Instr} (s t : State) (h : operandsLegal i = true) (hl : s.locked = true) :
    setupCommand i s t = .next (s.faultEntry .parametersLocked (encode i)) := by
  simp [setupCommand, withLegalOperands, raiseFault, h, hl]

theorem protocolCommand_unlocked {i : Instr} {k bound : Nat} (s t : State) (h : operandsLegal i = true)
    (hl : s.locked = false) :
    protocolCommand i k bound s t = .next (s.faultEntry .parametersNotSetUp (encode i)) := by
  simp [protocolCommand, withLegalOperands, raiseFault, h, hl]

theorem protocolCommand_outOfRange {i : Instr} {k bound : Nat} (s t : State) (h : operandsLegal i = true)
    (hl : s.locked = true) (hk : bound ≤ k) :
    protocolCommand i k bound s t = .next (s.faultEntry .invalidScalarRange (encode i)) := by
  simp [protocolCommand, withLegalOperands, raiseFault, h, hl, hk]

/-! ### Which checks a command makes -/

/-- FAULT, ERRCODE and ERRCMD are the same in both states. -/
def SameFaultRecord (s t : State) : Prop := t.fault = s.fault ∧ t.errcode = s.errcode ∧ t.errcmd = s.errcmd

theorem SameStatus.faultRecord {s t : State} (h : SameStatus s t) : SameFaultRecord s t := h.2

theorem SameButF.faultRecord {s t : State} {dest : Nat → Prop} (h : SameButF s t dest) : SameFaultRecord s t := by
  obtain ⟨-, -, -, hstatus, -⟩ := h
  exact hstatus.faultRecord

theorem exec_setup {i : Instr} (h : isSetup i = true) (s : State) :
    ∃ t, exec i s = setupCommand i s t ∧ SameFaultRecord s t := by
  cases i with
  | prmConst => exact ⟨_, rfl, rfl, rfl, rfl⟩
  | plock => exact ⟨s.withLock true, rfl, rfl, rfl, rfl⟩
  | _ => cases h

theorem exec_protocol {i : Instr} {ws : WReg} {bound : Nat} (h : scalarDemand i = some (ws, bound)) (s : State) :
    ∃ t, exec i s = protocolCommand i (s.wWord ws.toNat).toNat bound s t ∧ SameFaultRecord s t := by
  cases i with
  | isogen2 | isogen3 => cases h; exact ⟨_, rfl, (sameButF_writePk s _ _).faultRecord⟩
  | isoex2 | isoex3 => cases h; exact ⟨_, rfl, (sameButF_writeZ s _ _).faultRecord⟩
  | _ => cases h

theorem isProtocol_eq_isSome_scalarDemand (i : Instr) : isProtocol i = (scalarDemand i).isSome := by
  cases i <;> rfl

theorem exists_scalarDemand {i : Instr} (h : isProtocol i = true) : ∃ ws bound, scalarDemand i = some (ws, bound) := by
  rw [isProtocol_eq_isSome_scalarDemand, Option.isSome_iff_exists] at h
  obtain ⟨⟨ws, bound⟩, hd⟩ := h
  exact ⟨ws, bound, hd⟩

theorem isProtocol_of_scalarDemand {i : Instr} {ws : WReg} {bound : Nat} (h : scalarDemand i = some (ws, bound)) :
    isProtocol i = true := by
  rw [isProtocol_eq_isSome_scalarDemand, h, Option.isSome_some]

/-! ### The fault of a failing check, executed or written to CMD (rules R262, R265, R266, R267) -/

theorem raisesFault_of_exec {i : Instr} {s : State} {cause : FaultCause}
    (h : exec i s = .next (s.faultEntry cause (encode i))) : RaisesFault i s (faultCode cause) :=
  ⟨_, h, afterFault_faultEntry s cause (encode i)⟩

section
variable {i : Instr} {s : State}

theorem raisesFault_locked (hi : isSetup i = true) (hwf : i.WellFormed) (hl : s.locked = true) : RaisesFault i s 3 := by
  obtain ⟨t, he, -⟩ := exec_setup hi s
  exact raisesFault_of_exec (he.trans (setupCommand_locked s t hwf hl))

theorem raisesFault_unlocked (hi : isProtocol i = true) (hwf : i.WellFormed) (hl : s.locked = false) :
    RaisesFault i s 4 := by
  obtain ⟨ws, bound, hd⟩ := exists_scalarDemand hi
  obtain ⟨t, he, -⟩ := exec_protocol hd s
  exact raisesFault_of_exec (he.trans (protocolCommand_unlocked s t hwf hl))

theorem raisesFault_outOfRange {ws : WReg} {bound : Nat} (hd : scalarDemand i = some (ws, bound)) (hwf : i.WellFormed)
    (hl : s.locked = true) (hk : bound ≤ (s.wWord ws.toNat).toNat) : RaisesFault i s 5 := by
  obtain ⟨t, he, -⟩ := exec_protocol hd s
  exact raisesFault_of_exec (he.trans (protocolCommand_outOfRange s t hwf hl hk))

/-- The word written to CMD is the command's own word, so it is what ERRCMD records. -/
theorem RaisesFault.onCommandWrite {c : Word} {code : BitVec 4} (h : RaisesFault i s code) (hf : s.fault = false)
    (hd : decode c = .ok i) : ∃ t, commandWrite c s = .next t ∧ AfterFault s t code c := by
  obtain ⟨t, he, ht⟩ := h
  rw [encode_of_decode hd] at ht
  exact ⟨t, (commandWrite_of_decode hf hd).trans he, ht⟩

/-- A command that fails no check completes: one that the lock does not gate has its operands alone checked, a setup
command needs the bank unlocked, a protocol command needs it locked and its scalar in range. -/
theorem exec_completes (hwf : i.WellFormed) (hsetup : isSetup i = true → s.locked = false)
    (hprotocol : isProtocol i = true → s.locked = true)
    (hscalar : ∀ ws bound, scalarDemand i = some (ws, bound) → (s.wWord ws.toNat).toNat < bound) :
    ∃ t, exec i s = .next t ∧ SameFaultRecord s t := by
  cases hs : isSetup i with
  | true =>
    obtain ⟨t, he, ht⟩ := exec_setup hs s
    exact ⟨t, he.trans (setupCommand_unlocked s t hwf (hsetup hs)), ht⟩
  | false =>
    cases hp : isProtocol i with
    | true =>
      obtain ⟨ws, bound, hd⟩ := exists_scalarDemand hp
      obtain ⟨t, he, ht⟩ := exec_protocol hd s
      exact ⟨t, he.trans (protocolCommand_ready s t hwf (hprotocol hp) (hscalar ws bound hd)), ht⟩
    | false =>
      obtain ⟨t, he, hstatus, -⟩ := ungatedCommandsComplete s i hwf hs hp
      exact ⟨t, he, hstatus.faultRecord⟩

end

theorem commandWrite_of_fault {s : State} (c : Word) (hf : s.fault = true) : commandWrite c s = .next s := by
  simp only [commandWrite, hf, if_true]

/-- Settles O13: a word that selects no command, illegal operands, the lock and the scalar are each refused by their own
check, and a command that passes them all completes. -/
theorem commandAcceptanceOrder : Obligations.CommandAcceptanceOrder := by
  intro s c
  refine ⟨commandWrite_of_fault c, fun hf => ⟨commandWrite_of_undecodable hf, fun i hd =>
    ⟨commandWrite_of_illegal hf hd, fun hwf => ⟨?setup, ?protocol, ?scalar, ?completes⟩⟩⟩⟩
  case setup => exact fun hi hl => (raisesFault_locked hi hwf hl).onCommandWrite hf hd
  case protocol => exact fun hi hl => (raisesFault_unlocked hi hwf hl).onCommandWrite hf hd
  case scalar => exact fun ws bound hi hl hk => (raisesFault_outOfRange hi hwf hl hk).onCommandWrite hf hd
  case completes =>
    intro hsetup hprotocol hscalar
    obtain ⟨t, he, hfault, hrecord⟩ := exec_completes hwf hsetup hprotocol hscalar
    exact ⟨t, (commandWrite_of_decode hf hd).trans he, he, hfault.trans hf, hrecord⟩

/-- Settles O15: both commands are legal setup commands, and the lock stops them. -/
theorem setupFaultsWhenLocked : Obligations.SetupFaultsWhenLocked := by
  intro s hf hl
  have hplock : RaisesFault .plock s 3 := raisesFault_locked rfl rfl hl
  refine ⟨fun slot ws hslot hws => ?_, hplock, hplock.onCommandWrite hf rfl⟩
  have hwf : (Instr.prmConst slot ws).WellFormed := Bool.and_eq_true_iff.mpr ⟨legalS_iff.mpr hslot, legalW_iff.mpr hws⟩
  have hprm : RaisesFault (.prmConst slot ws) s 3 := raisesFault_locked rfl hwf hl
  exact ⟨hprm, hprm.onCommandWrite hf (decode_encode _)⟩

/-- Settles O16: the check of the lock comes before that of the scalar. -/
theorem protocolFaultsWhenUnlocked : Obligations.ProtocolFaultsWhenUnlocked := by
  intro s i hi hwf hf hl
  have hraise : RaisesFault i s 4 := raisesFault_unlocked hi hwf hl
  exact ⟨hraise, hraise.onCommandWrite hf (decode_encode i)⟩

/-- Settles O17: the scalar each command demands is the one of its own operand `ws`, below its side's bound. -/
theorem scalarRangeFault : Obligations.ScalarRangeFault := fun _ _ hl =>
  ⟨fun _ _ hwf hk => raisesFault_outOfRange rfl hwf hl hk, fun _ _ _ hwf hk => raisesFault_outOfRange rfl hwf hl hk,
    fun _ _ hwf hk => raisesFault_outOfRange rfl hwf hl hk, fun _ _ _ hwf hk => raisesFault_outOfRange rfl hwf hl hk⟩

/-! ### Fault entry is precise (rules R261, R262) -/

theorem faultCode_bounds (cause : FaultCause) : 1 ≤ (faultCode cause).toNat ∧ (faultCode cause).toNat ≤ 5 := by
  cases cause <;> decide

theorem Answer.eq_faultEntry {i : Instr} {s t : State} (h : Answer i s t) (hs : s.fault = false) (ht : t.fault = true) :
    ∃ cause, t = s.faultEntry cause (encode i) := by
  have hne : t.fault ≠ s.fault := by simp [hs, ht]
  cases h with
  | files => exact absurd rfl hne
  | bank => exact absurd rfl hne
  | lock => exact absurd rfl hne
  | fault cause => exact ⟨cause, rfl⟩

theorem commandWrite_eq_faultEntry {c : Word} {s t : State} (h : commandWrite c s = .next t) (hs : s.fault = false)
    (ht : t.fault = true) : ∃ cause, t = s.faultEntry cause c := by
  obtain ⟨hs', -⟩ | ⟨-, -, rfl⟩ | ⟨-, i, -, rfl, ha⟩ := commandWrite_cases h
  · exact absurd (hs.symm.trans hs') Bool.false_ne_true
  · exact ⟨.illegalCommand, rfl⟩
  · exact ha.eq_faultEntry hs ht

/-- Settles O14: the only answer that sets FAULT is the entry of one of the five faults, for the word written. -/
theorem faultEntryIsPrecise : Obligations.FaultEntryIsPrecise := by
  intro s t c hs h ht
  obtain ⟨cause, rfl⟩ := commandWrite_eq_faultEntry h hs ht
  exact ⟨afterFault_faultEntry s cause c, faultCode_bounds cause⟩

/-! ### A latched fault (rule R269) -/

/-- While a fault is latched a write to CMD is ignored, so what is left of an event that is no reset is the record of a read
or the write of a W port. -/
theorem hostEvent_keeps_fault {e : HostEvent} {s t : State} (hf : s.fault = true) (he : ¬ IsResetEvent e)
    (h : hostEvent e s = .next t) : SameStatus s t ∧ t.f = s.f ∧ t.prm = s.prm := by
  cases e with
  | portRead pa => cases h; exact ⟨SameStatus.refl s, rfl, rfl⟩
  | powerOn => exact absurd (.inl rfl) he
  | portWrite pa v =>
    cases portWrite_answer h with
    | command _ written =>
      cases (commandWrite_of_fault v hf).symm.trans written
      exact ⟨SameStatus.refl s, rfl, rfl⟩
    | reset ctrl bit => exact absurd (.inr ⟨v, by rw [ctrl], bit⟩) he
    | register => exact ⟨SameStatus.refl s, rfl, rfl⟩
    | ignored => exact ⟨SameStatus.refl s, rfl, rfl⟩

/-- Settles O18: of the events only a write to CMD looks at FAULT, and it is ignored; a reset clears the whole core. -/
theorem faultStaysUntilReset : Obligations.FaultStaysUntilReset := by
  intro s e hf
  refine ⟨fun c => commandWrite_of_fault c hf, fun _ => rfl, fun k v hk => (hostWritesIntegerRegister s v).1 k hk,
    fun he => ?_, fun he => ⟨s.resetCore, hostEvent_of_isResetEvent s he, resetCore_coreIsReset s⟩⟩
  obtain ⟨t, ht⟩ := hostEvent_next e s
  exact ⟨t, ht, hostEvent_keeps_fault hf he ht⟩

end Sys2Proof.Machine
end
